-- ==== Sys2Proof/Word.lean ====
section
/-! DEFINITION. The word types of the SP64 model: what the manual treats as bits. -/

namespace Sys2Proof

/-- One byte of the exchange memory (R164). -/
abbrev Byte := BitVec 8

/-- A 16-bit field: a request's tag, a trim, a guard number (R173, R180). -/
abbrev Half := BitVec 16

/-- A 32-bit word: a register, a next field, a frame number (R152, R164). -/
abbrev Word := BitVec 32

/-- A 64-channel mask: bit c is channel c (R180). -/
abbrev ChanMask := BitVec 64

/-- A channel, 0 to 63. -/
abbrev ChanId := Fin 64

/-- A preamp board, 0 to 7; board b serves channels 8b to 8b+7. -/
abbrev BoardId := Fin 8

/-- A converter lane, 0 to 7; lane g serves channels 8g to 8g+7. -/
abbrev LaneId := Fin 8

/-- An arbiter requester: channels 0 to 63, then boards 64 to 71 (section 2.5). -/
abbrev ReqId := Fin 72

/-- A slot of a frame, 0 to 63. -/
abbrev SlotId := Fin 64

end Sys2Proof
end

