-- ==== Sys2Proof/Config.lean ====
section
/-! DEFINITION. What the part's design fixes, and the FREE VALUES: constants without a body that stand for
what the manual leaves to the world outside (log entries 4 and 5). -/

namespace Sys2Proof.Config

/-- FREE VALUE (log entry 4). Whether the phase of the sample clock stayed inside the window of R155 during the
block that ends at a given frame, where no BLOCK_BOUNDARY command has told it. -/
opaque phaseInside : Word → Bool

/-- FREE VALUE (log entry 4). The rate measured against the reference during the block that ends at a given
frame, in millihertz, where no BLOCK_BOUNDARY command has told it. -/
opaque measuredRate : Word → Nat

/-- The nominal sample rate, 48,000 Hz, in millihertz (R151; the unit is log entry 5). -/
def nominalRate : Nat := 48000000

/-- Sample periods in a block (R153). -/
def blockPeriods : Nat := 48

/-- The conversion delay in sample periods (R77). -/
def conversionDelay : Word := 40#32

/-- The answer window in sample periods (R35). -/
def answerWindow : Nat := 96

/-- The zero-crossing window in sample periods (R73). -/
def crossingWindow : Nat := 480

/-- The phantom ramp in sample periods (R90). -/
def rampPeriods : Nat := 14400

/-- Blocks for which a failed readback is deferred (R37). -/
def readbackDeferral : Nat := 100

/-- Events the event queue holds (R187). -/
def queueDepth : Nat := 32

/-- The size of the exchange memory in bytes (R164). -/
def memorySize : Nat := 131072

/-- The offset of the anchor (R164, R168). -/
def anchor : Nat := 64

/-- The first offset of the request window (R164). -/
def windowBase : Nat := 128

/-- The first offset beyond the request window, where the report area begins (R164). -/
def windowEnd : Nat := 65536

/-- The bytes of one report block (R181). -/
def reportBlockSize : Nat := 512

/-- The part code shown by IDENT and the status area (R165). -/
def partCode : Half := 0x0640#16

/-- The revision shown by IDENT and the status area (R165). -/
def revision : Byte := 0x01#8

end Sys2Proof.Config
end

