-- ==== Sys2Proof/Syntax.lean ====
section
/-! DEFINITION. The commands the SP64 takes: one constructor of `Instr` for each row of spec/opcode_table.json, with
the operands that the row's rule reads from outside the part. The table gives its rows no bits, so the operands are
the model's reading of the rules (log entry 1). -/

namespace Sys2Proof

/-- The four feeds. -/
inductive Feed where
  | a | b | c | d
deriving DecidableEq, Repr

/-- The five ports (section 7.1). -/
inductive Port where
  | a | b | c1 | c2 | d
deriving DecidableEq, Repr

/-- The blocks of the part that work at a block boundary (R153). -/
inductive BoundaryUnit where
  | meterGuard | preampLine | sceneStore | feedPorts | exchange | clock
deriving DecidableEq, Repr

/-- What arrives on a converter lane in a sample period (R23): a good frame with the samples of the lane's eight
channels, a frame with a framing error, or no frame. -/
inductive LaneInput where
  | good (samples : Vector (BitVec 24) 8)
  | framingError
  | missing
deriving DecidableEq, Repr

/-- A character on the preamp line between its start bit and its end (R28, R29). -/
structure LineChar where
  data : Byte
  address : Bool
  check : Bool
  stop : Bool
deriving DecidableEq, Repr

/-- What the Clock Unit's phase measurement finds over the ended block (R155, R156): whether the phase stayed inside
the window, and the measured sample rate in millihertz. -/
structure PhaseInput where
  inside : Bool
  rate : Nat
deriving DecidableEq, Repr

/-- A return word, in the order of arrival of its bytes (R139, R183). -/
structure ReturnWord where
  id : Byte
  seq : Byte
  third : Byte
  check : Byte
deriving DecidableEq, Repr

/-- The fields every request record shares, as the controller wrote them (R173): the record's offset, the source, the
tag, the channel and the feed. They are raw bytes: the common checks of R174 judge them. -/
structure ReqHead where
  off : Word
  source : Byte
  tag : Half
  channel : Byte
  feed : Byte
deriving DecidableEq, Repr

/-- The six registers of section 9.2. -/
inductive Reg where
  | ident | control | poke | release | notice | noticeMask
deriving DecidableEq, Repr

/-- The commands: one constructor for each row of spec/opcode_table.json. -/
inductive Instr where
  /-- POWER_ON_RESET. -/
  | powerOnReset
  /-- SAMPLE_PERIOD: the sample of the running period is computed and the next period begins. -/
  | samplePeriod
  /-- LANE_FRAME: what arrived on a lane in the running period. -/
  | laneFrame (lane : LaneId) (frame : LaneInput)
  /-- ARBITER_DECISION: `first` is the requester whose asking is taken first, where several begin to ask together on an
  IDLE line (R43). -/
  | arbiterDecision (first : ReqId)
  /-- ANSWER_CHARACTER: a character received on the preamp line. -/
  | answerCharacter (ch : LineChar)
  /-- ANSWER_WINDOW_EXPIRY. -/
  | answerWindowExpiry
  /-- FORCED_STEP of a channel. -/
  | forcedStep (c : ChanId)
  /-- PENDING_APPLICATION of a channel. -/
  | pendingApplication (c : ChanId)
  /-- RAMP_END of a channel. -/
  | rampEnd (c : ChanId)
  /-- BLOCK_BOUNDARY: the boundary work of the named blocks, in the named order (R153 lays down none). -/
  | blockBoundary (units : List BoundaryUnit) (phase : PhaseInput)
  /-- ACQUISITION_TIMEOUT. -/
  | acquisitionTimeout
  /-- CLOCK_RETRY. -/
  | clockRetry
  /-- READBACK_RETRY of a board. -/
  | readbackRetry (b : BoardId)
  /-- POLL_COUNTDOWN_EXPIRY. -/
  | pollCountdownExpiry
  /-- METER_CLOSE. -/
  | meterClose
  /-- SWAP_APPLY. -/
  | swapApply
  /-- RETURN_WORD: a word that arrived on a port's return path. -/
  | returnWord (p : Port) (w : ReturnWord)
  /-- WORD_CLOCK_EDGE. -/
  | wordClockEdge
  /-- CHAIN_WALK: the byte writes the controller has made to the exchange memory since the last command, in order, and
  then one pass through the steps of R170. -/
  | chainWalk (writes : List Host.Cell)
  /-- REPLY_WRITE. -/
  | replyWrite
  /-- BAD_KIND: a record with a kind outside 1 to 17. -/
  | badKind (h : ReqHead) (kind : Byte)
  /-- SET_ANALOG. -/
  | setAnalog (h : ReqHead) (code : Half)
  /-- SET_PAD. -/
  | setPad (h : ReqHead) (v : Byte)
  /-- SET_PHANTOM. -/
  | setPhantom (h : ReqHead) (v : Byte)
  /-- READ_CHANNEL. -/
  | readChannel (h : ReqHead)
  /-- RESYNC. -/
  | resync (h : ReqHead)
  /-- SET_GUARD. -/
  | setGuard (h : ReqHead) (enable : Byte) (threshold hold floor rest : Half)
  /-- SET_TRIM; the trim is signed. -/
  | setTrim (h : ReqHead) (trim : Half)
  /-- SET_MODE. -/
  | setMode (h : ReqHead) (v : Byte)
  /-- SET_FLAGS. -/
  | setFlags (h : ReqHead) (mute invert : Byte)
  /-- CLAIM. -/
  | claim (h : ReqHead)
  /-- RELEASE. -/
  | release (h : ReqHead)
  /-- SET_FEED. -/
  | setFeed (h : ReqHead) (enable senior : Byte)
  /-- LOAD_SLOTMAP. -/
  | loadSlotmap (h : ReqHead) (map : Word)
  /-- LOAD_SHADOW. -/
  | loadShadow (h : ReqHead) (table : Word) (first count : Byte)
  /-- SWAP. -/
  | swap (h : ReqHead) (mask : ChanMask)
  /-- SET_CLOCK. -/
  | setClock (h : ReqHead) (source : Byte)
  /-- SET_EXCHANGE. -/
  | setExchange (h : ReqHead) (select : Byte) (threshold poll meter : Half) (unitId : Byte)
  /-- POKE: a write of any value to the POKE register. -/
  | poke (value : Word)
  /-- RELEASE_WRITE: a write to the RELEASE register; bits 7 to 0 are N. -/
  | releaseWrite (value : Word)
  /-- NOTICE_WRITE. -/
  | noticeWrite (value : Word)
  /-- NOTICE_MASK_WRITE. -/
  | noticeMaskWrite (value : Word)
  /-- BLOCKS: bits 3 to 2 of a CONTROL write. -/
  | blocks (code : BitVec 2)
  /-- ENABLE: bit 0 of a CONTROL write. -/
  | enable (on : Bool)
  /-- CLEAR: bit 1 of a CONTROL write. -/
  | clear (on : Bool)
  /-- EXCHANGE_CLEAR. -/
  | exchangeClear
  /-- REGISTER_WRITE_IGNORED: a write of a word to IDENT, or with a 1 in a bit of a register that the table does not name. -/
  | registerWriteIgnored (reg : Reg) (value : Word)
  /-- REPORT_WRITE. -/
  | reportWrite
deriving DecidableEq, Repr

end Sys2Proof
end

