-- ==== Sys2Proof/WellFormed.lean ====
section
/-! DEFINITION. Which commands are well formed: the operand values that the interface can carry. An ill-formed command
still has a total meaning (`exec`); these checks say what a sender keeps to. -/

namespace Sys2Proof

/-- A record offset a walk accepts (R170 step 3, R173): 64-aligned, from 0x00080 to 0x0FFC0. -/
def goodOffset (off : Nat) : Bool :=
  off % 64 == 0 && decide (0x80 ≤ off) && decide (off ≤ 0xFFC0)

/-- A request's record lies where a record may lie (R173). -/
def ReqHead.wf (h : ReqHead) : Bool := goodOffset h.off.toNat

/-- The bits of a register that the table of section 9.2 names. -/
def Reg.namedBits : Reg → Word
  | .ident => 0#32
  | .control => 0xF#32
  | .poke => 0xFFFFFFFF#32
  | .release => 0xFF#32
  | .notice => 0x1F#32
  | .noticeMask => 0x1F#32

/-- The commands a sender may send. -/
def Instr.wellFormed : Instr → Bool
  | .blockBoundary units _ => decide units.Nodup
  | .chainWalk writes => writes.all fun w => decide (w.1 < Config.memorySize)
  | .badKind h kind => h.wf && (kind == 0#8 || decide (17 < kind.toNat))
  | .setAnalog h _ | .setPad h _ | .setPhantom h _ | .readChannel h | .resync h | .setGuard h _ _ _ _ _ => h.wf
  | .setTrim h _ | .setMode h _ | .setFlags h _ _ | .claim h | .release h | .setFeed h _ _ => h.wf
  | .loadSlotmap h _ | .loadShadow h _ _ _ | .swap h _ | .setClock h _ | .setExchange h _ _ _ _ _ => h.wf
  | .registerWriteIgnored reg value => reg == .ident || value &&& ~~~reg.namedBits != 0#32
  | .powerOnReset | .samplePeriod | .laneFrame _ _ | .arbiterDecision _ | .answerCharacter _ => true
  | .answerWindowExpiry | .forcedStep _ | .pendingApplication _ | .rampEnd _ | .acquisitionTimeout => true
  | .clockRetry | .readbackRetry _ | .pollCountdownExpiry | .meterClose | .swapApply => true
  | .returnWord _ _ | .wordClockEdge | .replyWrite | .poke _ | .releaseWrite _ | .noticeWrite _ => true
  | .noticeMaskWrite _ | .blocks _ | .enable _ | .clear _ | .exchangeClear | .reportWrite => true

end Sys2Proof
end

