-- ==== Sys2Proof/Decode.lean ====
section
/-! DEFINITION. What a word of opcode_table.json's bits spells. The table gives no row any bits (its rows' "fields" are
empty and none has "fixed"), so no word spells a command (log entry 1). -/

namespace Sys2Proof

/-- The command that a word spells by the table's bits: none, since the table gives its rows no bits. -/
def decodeTableWord (_nbits _w : Nat) : Option Instr := none

end Sys2Proof
end

