-- ==== Sys2Proof/Machine/State.lean ====
section
/-! DEFINITION. The state of the SP64: every piece of state the manual gives the part, as plain data, with its
power-on value, and the queue of the commands that wait. -/

namespace Sys2Proof.Machine

/-- Raised where a command names something the manual says does not exist. -/
inductive Fault where
  /-- CHAIN_WALK raises it for a controller write to an offset beyond the 128 KiB of the exchange memory (R164). Safe:
  the model stops where the manual describes no access. -/
  | outsideExchangeMemory (offset : Nat)
deriving DecidableEq, Repr

/-- Why a command has no meaning. -/
inductive Refusal where
  /-- `exec` answers it for a command that has no meaning yet; no arm does. Safe. -/
  | notModelled (mnemonic : String)
deriving DecidableEq, Repr

/-- One value for each feed. -/
structure PerFeed (α : Type) where
  a : α
  b : α
  c : α
  d : α
deriving DecidableEq, Repr

/-- One value for each port. -/
structure PerPort (α : Type) where
  a : α
  b : α
  c1 : α
  c2 : α
  d : α
deriving DecidableEq, Repr

/-! ### Converter lanes (section 2.1) -/

/-- A lane's record: its state (`fault` on is FAULT, off is IN_SYNC), its good-frame run, and whether its frame of the
running period has been judged (R22 to R26). -/
structure Lane where
  fault : Bool
  run : Nat
  judged : Bool
deriving DecidableEq, Repr

/-! ### The preamp line (sections 2.2 to 2.5) -/

/-- The analog code and the pad of a preamp setting; `padIn` on stands for −80 (R2, R3). -/
structure Setting where
  analog : Int
  padIn : Bool
deriving DecidableEq, Repr

/-- What a STEP carries (R32): a setting and the phantom. -/
structure SentState where
  setting : Setting
  phantom : Bool
deriving DecidableEq, Repr

/-- The error of an answer character (R29), or of a transaction (R35). -/
inductive LineError where
  | framing | check | timeout
deriving DecidableEq, Repr

/-- What a transaction is: a STEP of a channel with its sent state, or a READBACK (section 2.3). -/
inductive TxKind where
  | step (c : ChanId) (sent : SentState)
  | readback
deriving DecidableEq, Repr

/-- The in-flight transaction record (section 2.3). `data` holds the data of the answer characters received so far, so
its length is the record's received count. -/
structure InFlight where
  kind : TxKind
  board : BoardId
  data : List Byte
  firstError : Option LineError
  window : Nat
deriving DecidableEq, Repr

/-- A board's readback request (section 2.4). -/
inductive ReadbackRequest where
  | idle | asking | deferred
deriving DecidableEq, Repr

/-- A board's record (section 2.4, R36). -/
structure Board where
  offline : Bool
  failures : Nat
  request : ReadbackRequest
  countdown : Nat
deriving DecidableEq, Repr

/-- The arbiter's state (R44 to R46). `together` is the model's own: the next decision considers every asking requester,
because a transaction has ended or the part has just been powered on (R43, R47; log entry 8). -/
structure Arbiter where
  urgentPtr : ReqId
  ordinaryPtr : ReqId
  fairness : Nat
  together : Bool
deriving DecidableEq, Repr

/-! ### The channel record of the Gain Tracker (R70) -/

/-- The operation states (R72). -/
inductive OpState where
  | idle | zcWait | lineWait | ackWait | settling | suspect
deriving DecidableEq, Repr

/-- The step a transaction carries (R75). -/
inductive CarriedStep where
  | nothing | pad | up | down
deriving DecidableEq, Repr

/-- The state a phantom-only grant resumes (R89). -/
inductive ResumeState where
  | idle | zcWait | settling
deriving DecidableEq, Repr

/-- The phantom states (R90). -/
inductive PhantomState where
  | off | rampUp | on | rampDown | faulted
deriving DecidableEq, Repr

/-- Why an owner changed (R56). -/
inductive OwnCause where
  | claim | takeover | release | feedOff | scene
deriving DecidableEq, Repr

/-- The cancel note (R70, R82). -/
structure CancelNote where
  tag : Option Half
  target : Setting
  superseded : Nat
  cause : OwnCause
deriving DecidableEq, Repr

/-- The last sent state, with its failed mark (R70). -/
structure LastSent where
  sent : SentState
  failed : Bool
deriving DecidableEq, Repr

/-- An entry of the pending applications list (R70, R77). -/
structure PendingEntry where
  setting : Setting
  due : Word
deriving DecidableEq, Repr

/-- The channel record (R70). `fresh` is the model's own: ZC_WAIT was entered in the running period, whose own sample is
therefore not examined (R73; log entry 12). -/
structure Chan where
  ack : Setting
  ackPhantom : Bool
  app : Setting
  tgt : Setting
  phantomTgt : Bool
  owner : Option Feed
  op : OpState
  opened : Bool
  tag : Option Half
  superseded : Nat
  forced : Nat
  urgent : Bool
  note : Option CancelNote
  window : Nat
  lastNeg : Bool
  carried : CarriedStep
  resume : ResumeState
  lastSent : Option LastSent
  pend : List PendingEntry
  startup : Bool
  tgtSet : Bool
  phantomTgtSet : Bool
  phantom : PhantomState
  ramp : Nat
  fresh : Bool
deriving DecidableEq, Repr

/-! ### Crosspoints (R49) -/

/-- A crosspoint's mode; the reference is present exactly in TRACK (R5, R49). -/
inductive XpMode where
  | owner | follow | track (ref : Int)
deriving DecidableEq, Repr

/-- The cause of a LIMIT event (R69). -/
inductive LimitCause where
  | level | request | scene
deriving DecidableEq, Repr

/-- The model's own: what the continuity rules still owe a crosspoint until its first new sample (R51, R52; log entry
7): nothing, a reference to take again, or a fold of a trim and a reference to make again. -/
inductive Continuity where
  | settled
  | entered
  | folded (trim ref : Int)
deriving DecidableEq, Repr

/-- A crosspoint record (R49). `continuity` and `cause` are the model's own: what R51 and R52 still owe, and what moved the
raw gain across a clamp bound last since the sample before (R69; log entry 7). -/
structure Xp where
  mode : XpMode
  trim : Int
  mute : Bool
  invert : Bool
  limited : Bool
  satSeen : Bool
  continuity : Continuity
  cause : LimitCause
deriving DecidableEq, Repr

/-- What the last computed sample used of a channel and its crosspoints, which READ_CHANNEL reports (R96). -/
structure SampleView where
  app : Setting
  modes : PerFeed XpMode
  trims : PerFeed Int
deriving DecidableEq, Repr

/-! ### Metering and the guard (Chapter 5) -/

/-- The block record of a channel (R97). -/
structure BlockRecord where
  peak : Nat
  clip : Bool
  fault : Bool
  suspect : Bool
deriving DecidableEq, Repr

/-- The interval record of a channel (R99). -/
structure IntervalRecord where
  peak : Nat
  clip : Bool
  fault : Bool
  guarded : Bool
  suspect : Bool
deriving DecidableEq, Repr

/-- The guard record of a channel (R104). -/
structure Guard where
  enable : Bool
  threshold : Nat
  hold : Nat
  floor : Nat
  rest : Nat
  overCount : Nat
  restLeft : Nat
  floorReported : Bool
deriving DecidableEq, Repr

/-- One channel's entry of a meter snapshot (R102). -/
structure SnapEntry where
  peak : Nat
  clip : Bool
  fault : Bool
  guarded : Bool
  suspect : Bool
  sat : PerFeed Bool
  limited : PerFeed Bool
deriving DecidableEq, Repr

/-- A meter snapshot (R102). -/
structure Snapshot where
  stamp : Word
  entries : Vector SnapEntry 64
deriving DecidableEq, Repr

/-! ### Scenes (R114, R115) -/

/-- What a scene record holds for one feed. -/
structure SceneFeed where
  track : Bool
  trim : Int
  mute : Bool
  invert : Bool
deriving DecidableEq, Repr

/-- A channel scene record (R114). -/
structure SceneRecord where
  target : Setting
  owner : Option Feed
  feeds : PerFeed SceneFeed
deriving DecidableEq, Repr

/-- The Scene Store (R115). -/
structure SceneStore where
  shadow : Vector SceneRecord 64
  loaded : ChanMask
  mask : ChanMask
  tag : Option Half
deriving DecidableEq, Repr

/-! ### Ports (R131) -/

/-- The link states (R131). -/
inductive LinkState where
  | off | seeking | up | degraded | down
deriving DecidableEq, Repr

/-- Why a LINK event was raised (R148). -/
inductive LinkCause where
  | enable | disable | validRun | errorWindow | cleanRun | lost | listen
deriving DecidableEq, Repr

/-- The latest word: the far-end ID, and the byte with the listening flag and the far-end error count (R131, R181). -/
structure LatestWord where
  id : Byte
  third : Byte
deriving DecidableEq, Repr

/-- A port's record (R131). `window` is the error window, on for an error block, oldest first; the window count is the
number of its on entries. `word` is the first word of the running block (R140); `timing` is the model's own: a word has
arrived since the Clock Unit's last boundary work (R155). -/
structure PortRec where
  state : LinkState
  validRun : Nat
  invalidRun : Nat
  window : List Bool
  cleanRun : Nat
  lastSeq : Option Byte
  latest : Option LatestWord
  judging : Bool
  word : Option ReturnWord
  timing : Bool
deriving DecidableEq, Repr

/-- The frame a port sends (R132): 64 slot samples and a control word. -/
structure Frame where
  slots : Vector Int 64
  control : Word
deriving DecidableEq, Repr

/-! ### The clock (R151) -/

/-- The preferred sources. -/
inductive ClockSource where
  | internal | portC | external
deriving DecidableEq, Repr

/-- The references; none is HOLDOVER in the form WAIT. -/
inductive ClockRef where
  | internal | c1 | c2 | external | nothing
deriving DecidableEq, Repr

/-- The lock states. -/
inductive LockState where
  | locked | acquiring | holdover
deriving DecidableEq, Repr

/-- The holdover forms. -/
inductive HoldForm where
  | resume | rest | wait
deriving DecidableEq, Repr

/-- Why a CLOCK event was raised (R162). -/
inductive ClockCause where
  | select | locked | timeout | lostLock | unfit | resume | retry | found
deriving DecidableEq, Repr

/-- The clock record (R151). `edge` is an edge at the word clock input in the running block (R154); `armed` is on when
the running block is one that R155 judges; `c1` and `c2` are the link states of C1 and C2 as the boundary work last read
them (R154, R162). The held rate is in millihertz (log entry 5). -/
structure Clock where
  preferred : ClockSource
  ref : ClockRef
  lock : LockState
  form : HoldForm
  inRun : Nat
  outRun : Nat
  acq : Nat
  retry : Nat
  heldRate : Nat
  extFit : Bool
  edge : Bool
  armed : Bool
  c1 : LinkState
  c2 : LinkState
deriving DecidableEq, Repr

/-! ### Events (Chapter 10) -/

/-- The PREAMP causes with what each carries (R41). -/
inductive PreampCause where
  | stepFailed (c : ChanId) (err : LineError) (failures : Nat)
  | offline (err : LineError)
  | online
deriving DecidableEq, Repr

/-- Why a MISMATCH event was raised (R87). -/
inductive MismatchCause where
  | readback | stepAnswer
deriving DecidableEq, Repr

/-- The events that the blocks hand to the Exchange Unit, each with what its rule says it carries. -/
inductive Event where
  | gainDone (c : ChanId) (ack : Setting) (lapp : Int) (tag : Option Half) (forced superseded : Nat)
  | gainCancelled (c : ChanId) (note : CancelNote) (ack : Setting) (ackPhantom : Bool) (lapp : Int)
  | ownership (c : ChanId) (former new : Option Feed) (cause : OwnCause) (tag : Option Half)
  | guard (c : ChanId) (overCount peak : Nat) (aApp before after : Int) (rest : Nat)
  | guardFloor (c : ChanId) (overCount peak : Nat) (aApp : Int) (floor : Nat)
  | limit (c : ChanId) (f : Feed) (on : Bool) (cause : LimitCause) (raw g lapp : Int)
  | phantom (c : ChanId) (state : PhantomState) (fault : Bool) (ack : Setting)
  | swapDone (tag : Option Half) (ownersChanged : Nat) (swapped skipped : ChanMask)
  | mismatch (c : ChanId) (cause : MismatchCause) (expected found : SentState)
      (wasSuspect failedHeld equalsFailed : Bool)
  | link (p : Port) (former new : LinkState) (cause : LinkCause) (windowCount : Nat) (latest : Option LatestWord)
      (tag : Option Half)
  | preamp (b : BoardId) (cause : PreampCause)
  | input (lane : LaneId) (fault : Bool)
  | clock (former new : LockState) (formerForm newForm : HoldForm) (formerRef newRef : ClockRef)
      (preferred : ClockSource) (cause : ClockCause) (inRun outRun acq : Nat) (c1 c2 : LinkState) (extFit : Bool)
      (tag : Option Half)
deriving DecidableEq, Repr

/-- An event in the queue with its frame stamp (R187). -/
structure QueuedEvent where
  stamp : Word
  event : Event
deriving DecidableEq, Repr

/-! ### The Exchange Unit (Chapters 9 and 10) -/

/-- The result codes, in the order of their codes 0 to 15 (R175). -/
inductive Result where
  | ok | clamped | asTrim | owned | held | notOwner | isOwner | feedOff | faulted | busy
  | badKind | badChannel | badFeed | badSource | badPointer | badArg
deriving DecidableEq, Repr

/-- The header of a record being taken, as read at the take (R171). -/
structure TakeHead where
  off : Nat
  kind : Byte
  source : Byte
  tag : Half
  channel : Byte
  feed : Byte
deriving DecidableEq, Repr

/-- The reply of a crosspoint request that waits for its first new sample (R58): its channel and feed, the former owner
where the kind reports one, the two marks of a SET_ANALOG served as trim, and the trim and reference that a request which
leaves TRACK folds (R52). -/
structure XpReply where
  c : ChanId
  f : Feed
  former : Option Feed
  codeAdjusted : Bool
  trimClamped : Bool
  fold : Option (Int × Int)
deriving DecidableEq, Repr

/-- The record in hand (R168, R171): its head, the result its rule gives, the reply it waits to write, and, once its
first new sample has been computed, the result and the reply bytes as that sample saw them. -/
structure InHand where
  head : TakeHead
  result : Result
  reply : XpReply
  ready : Option (Result × List Byte)
deriving DecidableEq, Repr

/-- The sticky bits of NOTICE (R166). -/
structure Sticky where
  urgent : Bool
  chain : Bool
  excess : Bool
  lock : Bool
deriving DecidableEq, Repr

/-- The Exchange Unit's state: registers, walk, settings, report store, event queue, losses, held snapshot and the
exchange memory. `clearAsked` holds an exchange clear that waits for the record in hand (R179). -/
structure Exchange where
  enable : Bool
  blocksCode : BitVec 2
  sticky : Sticky
  mask : BitVec 5
  cursor : Nat
  walking : Bool
  inHand : Option InHand
  again : Bool
  pollCountdown : Nat
  clearAsked : Bool
  threshold : Nat
  pollInterval : Nat
  meterInterval : Nat
  unitId : Nat
  meterCountdown : Nat
  oldest : Nat
  filled : Nat
  queue : List QueuedEvent
  lost : Nat
  firstLost : Option Word
  lastLost : Option Word
  held : Option Snapshot
  frameSnapshot : Word
  mem : List Host.Cell
deriving DecidableEq, Repr

/-! ### The whole part -/

/-- The state of the part, with the commands that wait, the first at the head. `owed` holds the blocks whose boundary work
of the running period is still to be done; it is the model's own (log entry 6). -/
structure State where
  pending : List Instr
  frame : Word
  owed : List BoundaryUnit
  lanes : Vector Lane 8
  samples : Vector Int 64
  line : Option InFlight
  lineOut : List LineChar
  boards : Vector Board 8
  arb : Arbiter
  chans : Vector Chan 64
  xps : Vector (PerFeed Xp) 64
  feedOn : PerFeed Bool
  senior : Option Feed
  slots : PerFeed (Vector (Option ChanId) 64)
  outputs : Vector (PerFeed Int) 64
  views : Vector SampleView 64
  blocks : Vector BlockRecord 64
  intervals : Vector IntervalRecord 64
  guards : Vector Guard 64
  scenes : SceneStore
  ports : PerPort PortRec
  portOut : PerPort (Option Frame)
  clock : Clock
  ex : Exchange
deriving DecidableEq, Repr

/-! ### Power-on values -/

/-- The same value for each feed. -/
def perFeed {α : Type} (x : α) : PerFeed α := ⟨x, x, x, x⟩

/-- The same value for each port. -/
def perPort {α : Type} (x : α) : PerPort α := ⟨x, x, x, x, x⟩

/-- Analog code 0 with the pad out. -/
def resetSetting : Setting := { analog := 0, padIn := false }

/-- A lane at power-on (R26). -/
def resetLane : Lane := { fault := true, run := 0, judged := false }

/-- A board's record at power-on (R36). -/
def resetBoard : Board := { offline := false, failures := 0, request := .asking, countdown := 0 }

/-- The arbiter at power-on (R46); its first decision considers all eight boards (R47). -/
def resetArbiter : Arbiter := { urgentPtr := 0, ordinaryPtr := 0, fairness := 0, together := true }

/-- The channel record at power-on (R70). -/
def resetChan : Chan :=
  { ack := resetSetting, ackPhantom := false, app := resetSetting, tgt := resetSetting, phantomTgt := false,
    owner := none, op := .suspect, opened := false, tag := none, superseded := 0, forced := 0, urgent := false,
    note := none, window := 0, lastNeg := false, carried := .nothing, resume := .idle, lastSent := none, pend := [],
    startup := true, tgtSet := false, phantomTgtSet := false, phantom := .off, ramp := 0, fresh := false }

/-- A crosspoint at power-on (R49). -/
def resetXp : Xp :=
  { mode := .follow, trim := 0, mute := false, invert := false, limited := false, satSeen := false,
    continuity := .settled, cause := .level }

/-- What READ_CHANNEL reports of the samples before the first one: the power-on values. -/
def resetView : SampleView :=
  { app := resetSetting, modes := perFeed .follow, trims := perFeed 0 }

/-- A block record at power-on and after a block boundary (R97, R98). -/
def resetBlock : BlockRecord := { peak := 0, clip := false, fault := false, suspect := false }

/-- An interval record at power-on and after a close (R99, R101). -/
def resetInterval : IntervalRecord :=
  { peak := 0, clip := false, fault := false, guarded := false, suspect := false }

/-- A guard record at power-on (R104). -/
def resetGuard : Guard :=
  { enable := false, threshold := 32767, hold := 4, floor := 0, rest := 200, overCount := 0, restLeft := 0,
    floorReported := false }

/-- A feed's part of a shadow record at power-on (R115). -/
def resetSceneFeed : SceneFeed := { track := false, trim := 0, mute := false, invert := false }

/-- A shadow record at power-on (R115). -/
def resetScene : SceneRecord := { target := resetSetting, owner := none, feeds := perFeed resetSceneFeed }

/-- The Scene Store at power-on (R115). -/
def resetScenes : SceneStore :=
  { shadow := Vector.replicate 64 resetScene, loaded := 0#64, mask := 0#64, tag := none }

/-- A port's record at power-on, which the disable of its feed restores (R131, R138). -/
def resetPort : PortRec :=
  { state := .off, validRun := 0, invalidRun := 0, window := [], cleanRun := 0, lastSeq := none, latest := none,
    judging := false, word := none, timing := false }

/-- The clock record at power-on (R151). -/
def resetClock : Clock :=
  { preferred := .internal, ref := .internal, lock := .locked, form := .wait, inRun := 0, outRun := 0, acq := 0,
    retry := 0, heldRate := Config.nominalRate, extFit := false, edge := false, armed := false, c1 := .off,
    c2 := .off }

/-- The sticky notices at power-on (R166). -/
def resetSticky : Sticky := { urgent := false, chain := false, excess := false, lock := false }

/-- The Exchange Unit at power-on (R164 to R168, R177, R178, R185, R187, R190). -/
def resetExchange : Exchange :=
  { enable := false, blocksCode := 2#2, sticky := resetSticky, mask := 0#5, cursor := Config.anchor, walking := false,
    inHand := none, again := false, pollCountdown := 0, clearAsked := false, threshold := 0, pollInterval := 5,
    meterInterval := 50, unitId := 0, meterCountdown := 50, oldest := 0, filled := 0, queue := [], lost := 0,
    firstLost := none, lastLost := none, held := none, frameSnapshot := 0#32, mem := [] }

/-- The slot map at power-on: slot s holds channel s (R65). -/
def resetSlots : Vector (Option ChanId) 64 := Vector.ofFn fun s : Fin 64 => some s

/-- The blocks that work at a block boundary, in the order the model takes them where no command says (R153, log entry
6). -/
def allUnits : List BoundaryUnit :=
  [.meterGuard, .preampLine, .sceneStore, .feedPorts, .clock, .exchange]

/-- The part right after power-on reset (R70 and the power-on values of every chapter): frame 0, whose block boundary is
still to be worked (R98, R178). -/
def State.reset : State :=
  { pending := [], frame := 0#32, owed := allUnits, lanes := Vector.replicate 8 resetLane,
    samples := Vector.replicate 64 0, line := none, lineOut := [], boards := Vector.replicate 8 resetBoard,
    arb := resetArbiter, chans := Vector.replicate 64 resetChan, xps := Vector.replicate 64 (perFeed resetXp),
    feedOn := perFeed false, senior := none, slots := perFeed resetSlots, outputs := Vector.replicate 64 (perFeed 0),
    views := Vector.replicate 64 resetView, blocks := Vector.replicate 64 resetBlock,
    intervals := Vector.replicate 64 resetInterval, guards := Vector.replicate 64 resetGuard, scenes := resetScenes,
    ports := perPort resetPort, portOut := perPort none, clock := resetClock, ex := resetExchange }

end Sys2Proof.Machine
end

