-- ==== Sys2Proof/Machine/Memory.lean ====
section
/-! DEFINITION. The exchange memory (R164): 131,072 bytes, held as the list of the bytes that are not 0, and the
little-endian fields built from them. The status area, 0x00000 to 0x0003F, is a view of other state (Exchange.lean), so
the list holds no byte of it. -/

namespace Sys2Proof.Machine

/-- What a byte that the list does not hold reads as: at power-on every byte of the memory is 0 (R164). -/
def unlistedByte : Byte := 0#8

/-- The canonical form of the list: offsets strictly rising, no byte equal to what an unlisted one reads as. -/
abbrev Memory.wf (m : List Host.Cell) : Prop :=
  m.Pairwise (fun x y => x.1 < y.1) ∧ ∀ x ∈ m, x.2 ≠ unlistedByte

/-- The byte at an offset. -/
def readByte : List Host.Cell → Nat → Byte
  | [], _ => unlistedByte
  | (k, v) :: rest, a => if k = a then v else readByte rest a

/-- Put a byte before a list whose offsets are higher, unless it is what an unlisted byte reads as. -/
def consByte (a : Nat) (v : Byte) (rest : List Host.Cell) : List Host.Cell :=
  if v = unlistedByte then rest else (a, v) :: rest

/-- Store a byte at an offset, keeping the canonical form. -/
def writeByte : List Host.Cell → Nat → Byte → List Host.Cell
  | [], a, v => consByte a v []
  | (k, w) :: rest, a, v =>
    if a < k then consByte a v ((k, w) :: rest)
    else if a = k then consByte a v rest
    else (k, w) :: writeByte rest a v

/-- Store bytes at rising offsets. -/
def writeBytes : List Host.Cell → Nat → List Byte → List Host.Cell
  | m, _, [] => m
  | m, a, v :: vs => writeBytes (writeByte m a v) (a + 1) vs

/-- The n bytes from an offset on. -/
def readBytes (m : List Host.Cell) (a : Nat) : Nat → List Byte
  | 0 => []
  | n + 1 => readByte m a :: readBytes m (a + 1) n

/-- The 16-bit field at an offset (little-endian). -/
def readHalf (m : List Host.Cell) (a : Nat) : Half := readByte m (a + 1) ++ readByte m a

/-- The 32-bit field at an offset (little-endian). -/
def readWord (m : List Host.Cell) (a : Nat) : Word := readHalf m (a + 2) ++ readHalf m a

/-- The 64-bit field at an offset (little-endian). -/
def readMask (m : List Host.Cell) (a : Nat) : ChanMask := readWord m (a + 4) ++ readWord m a

/-- The bytes of a 16-bit field, lowest offset first. -/
def halfBytes (v : Half) : List Byte := [v.extractLsb' 0 8, v.extractLsb' 8 8]

/-- The bytes of a 32-bit field, lowest offset first. -/
def wordBytes (v : Word) : List Byte := halfBytes (v.extractLsb' 0 16) ++ halfBytes (v.extractLsb' 16 16)

/-- The bytes of a 64-bit field, lowest offset first. -/
def maskBytes (v : ChanMask) : List Byte := wordBytes (v.extractLsb' 0 32) ++ wordBytes (v.extractLsb' 32 32)

/-- An unsigned byte field. -/
def u8 (n : Nat) : Byte := BitVec.ofNat 8 n

/-- An unsigned 16-bit field. -/
def u16 (n : Nat) : List Byte := halfBytes (BitVec.ofNat 16 n)

/-- A signed 16-bit field: a level, trim, reference, raw gain or G (R180, R181). -/
def s16 (x : Int) : List Byte := halfBytes (BitVec.ofInt 16 x)

/-- An analog code, an unsigned byte in gain steps (R180, R181). -/
def codeByte (x : Int) : Byte := BitVec.ofInt 8 x

/-- A flag: 0 off, 1 on. -/
def flagByte (b : Bool) : Byte := if b then 1#8 else 0#8

/-- A byte of eight flags, bit 0 first. -/
def bitsByte (b0 b1 b2 b3 b4 b5 b6 b7 : Bool) : Byte :=
  BitVec.ofBool b7 ++ BitVec.ofBool b6 ++ BitVec.ofBool b5 ++ BitVec.ofBool b4 ++
    BitVec.ofBool b3 ++ BitVec.ofBool b2 ++ BitVec.ofBool b1 ++ BitVec.ofBool b0

/-- Bytes followed by zeros up to a length: bytes a layout does not name are written as 0 (section 9.7). -/
def padTo (n : Nat) (bs : List Byte) : List Byte := bs ++ List.replicate (n - bs.length) 0#8

/-- A controller write of one byte (R164): kept in the anchor and the request window, discarded in the status area and
the report area. -/
def controllerWrite (m : List Host.Cell) (a : Nat) (v : Byte) : List Host.Cell :=
  if Config.anchor ≤ a ∧ a < Config.windowEnd then writeByte m a v else m

/-- Controller writes of bytes at rising offsets. -/
def controllerWrites : List Host.Cell → Nat → List Byte → List Host.Cell
  | m, _, [] => m
  | m, a, v :: vs => controllerWrites (controllerWrite m a v) (a + 1) vs

/-- Controller writes of single bytes in order. -/
def controllerCells : List Host.Cell → List Host.Cell → List Host.Cell
  | m, [] => m
  | m, (a, v) :: rest => controllerCells (controllerWrite m a v) rest

end Sys2Proof.Machine
end

