-- ==== Sys2Proof/Machine/Ops.lean ====
section
/-! DEFINITION. The named operations over the state: reading and replacing one channel's, crosspoint's, board's or port's
record, and handing an event to the Exchange Unit. -/

namespace Sys2Proof.Machine

/-! ### Tables -/

/-- The table whose entry i is f i. -/
def tab {α : Type} {n : Nat} (f : Fin n → α) : Vector α n := Vector.ofFn f

/-- A table with one entry replaced. -/
def upd {α : Type} {n : Nat} (v : Vector α n) (i : Fin n) (x : α) : Vector α n := v.set i.val x i.isLt

/-- Every index below n, in ascending order. -/
def indices (n : Nat) : List (Fin n) := List.finRange n

/-- The feeds in the order A, B, C, D (R69). -/
def allFeeds : List Feed := [.a, .b, .c, .d]

/-- The ports in port order: A, B, C1, C2, D (R149). -/
def allPorts : List Port := [.a, .b, .c1, .c2, .d]

/-- A feed's value. -/
def PerFeed.get {α : Type} (v : PerFeed α) : Feed → α
  | .a => v.a
  | .b => v.b
  | .c => v.c
  | .d => v.d

/-- A feed's value replaced. -/
def PerFeed.set {α : Type} (v : PerFeed α) (f : Feed) (x : α) : PerFeed α :=
  match f with
  | .a => { v with a := x }
  | .b => { v with b := x }
  | .c => { v with c := x }
  | .d => { v with d := x }

/-- The table of a function over the feeds. -/
def PerFeed.of {α : Type} (f : Feed → α) : PerFeed α := ⟨f .a, f .b, f .c, f .d⟩

/-- A port's value. -/
def PerPort.get {α : Type} (v : PerPort α) : Port → α
  | .a => v.a
  | .b => v.b
  | .c1 => v.c1
  | .c2 => v.c2
  | .d => v.d

/-- A port's value replaced. -/
def PerPort.set {α : Type} (v : PerPort α) (p : Port) (x : α) : PerPort α :=
  match p with
  | .a => { v with a := x }
  | .b => { v with b := x }
  | .c1 => { v with c1 := x }
  | .c2 => { v with c2 := x }
  | .d => { v with d := x }

/-- The table of a function over the ports. -/
def PerPort.of {α : Type} (f : Port → α) : PerPort α := ⟨f .a, f .b, f .c1, f .c2, f .d⟩

/-- The feed a port serves (section 7.1). -/
def portFeed : Port → Feed
  | .a => .a
  | .b => .b
  | .c1 => .c
  | .c2 => .c
  | .d => .d

/-- The ports of a feed, in port order (section 7.1). -/
def feedPorts : Feed → List Port
  | .a => [.a]
  | .b => [.b]
  | .c => [.c1, .c2]
  | .d => [.d]

/-- The board, or the lane, that serves a channel. -/
def boardOf (c : ChanId) : BoardId := ⟨c.val / 8, by omega⟩

/-- A channel's place within its board, or its lane. -/
def placeOf (c : ChanId) : Fin 8 := ⟨c.val % 8, by omega⟩

/-- Channel i of board b: 8b + i. -/
def chanAt (b : BoardId) (i : Fin 8) : ChanId := ⟨8 * b.val + i.val, by omega⟩

/-- A count raised by one, saturating at 65,535 (R71, R73, R187). -/
def satSucc (n : Nat) : Nat := min 65535 (n + 1)

/-- Bit c of a channel mask. -/
def inMask (m : ChanMask) (c : ChanId) : Bool := m.getLsbD c.val

/-- The mask of the channels that satisfy a test. -/
def maskOf (p : ChanId → Bool) : ChanMask :=
  (indices 64).foldl (fun m c => if p c then m ||| (1#64 <<< c.val) else m) 0#64

/-! ### Levels (R2, R3) -/

/-- The value of a pad: 0 out, −80 in (R2). -/
def padValue (padIn : Bool) : Int := if padIn then -80 else 0

/-- The level of a setting: analog code plus pad (R3). -/
def Setting.level (x : Setting) : Int := x.analog + padValue x.padIn

/-- L_app, the applied level (R3, R70). -/
def Chan.level (ch : Chan) : Int := ch.app.level

/-- A trim clamped to −240 to +96 (R4). -/
def clampGain (x : Int) : Int := max (-240) (min 96 x)

/-! ### Records of the state -/

/-- A channel's record. -/
def State.chan (s : State) (c : ChanId) : Chan := s.chans[c]

/-- A channel's record replaced. -/
def State.setChan (s : State) (c : ChanId) (ch : Chan) : State := { s with chans := upd s.chans c ch }

/-- The crosspoint (c, f). -/
def State.xp (s : State) (c : ChanId) (f : Feed) : Xp := s.xps[c].get f

/-- The crosspoint (c, f) replaced. -/
def State.setXp (s : State) (c : ChanId) (f : Feed) (x : Xp) : State :=
  { s with xps := upd s.xps c (s.xps[c].set f x) }

/-- The four crosspoints of a channel replaced. -/
def State.setXps (s : State) (c : ChanId) (xs : PerFeed Xp) : State := { s with xps := upd s.xps c xs }

/-- A board's record. -/
def State.board (s : State) (b : BoardId) : Board := s.boards[b]

/-- A board's record replaced. -/
def State.setBoard (s : State) (b : BoardId) (x : Board) : State := { s with boards := upd s.boards b x }

/-- A guard's record. -/
def State.guard (s : State) (c : ChanId) : Guard := s.guards[c]

/-- A guard's record replaced. -/
def State.setGuard (s : State) (c : ChanId) (g : Guard) : State := { s with guards := upd s.guards c g }

/-- A port's record. -/
def State.port (s : State) (p : Port) : PortRec := s.ports.get p

/-- A port's record replaced. -/
def State.setPort (s : State) (p : Port) (x : PortRec) : State := { s with ports := s.ports.set p x }

/-- The Exchange Unit's state replaced. -/
def State.setEx (s : State) (x : Exchange) : State := { s with ex := x }

/-! ### Handing events over (R187) -/

/-- The class of an event: on for URGENT (section 10.2, R148). -/
def Event.urgent : Event → Bool
  | .preamp _ _ | .input _ _ | .clock _ _ _ _ _ _ _ _ _ _ _ _ _ _ _ => true
  | .link _ former new _ _ _ _ => former == .down || new == .down
  | .gainDone _ _ _ _ _ _ | .gainCancelled _ _ _ _ _ | .ownership _ _ _ _ _ | .guard _ _ _ _ _ _ _ => false
  | .guardFloor _ _ _ _ _ | .limit _ _ _ _ _ _ _ | .phantom _ _ _ _ | .swapDone _ _ _ _ => false
  | .mismatch _ _ _ _ _ _ _ => false

/-- URGENT set in NOTICE. -/
def Sticky.setUrgent (n : Sticky) : Sticky := { n with urgent := true }

/-- An event joins the queue, and sets URGENT if its class is URGENT; an event that meets 32 queued ones is dropped and
counted (R187). -/
def Exchange.join (x : Exchange) (q : QueuedEvent) : Exchange :=
  if x.queue.length < Config.queueDepth then
    { x with queue := x.queue ++ [q], sticky := { x.sticky with urgent := x.sticky.urgent || q.event.urgent } }
  else
    { x with lost := satSucc x.lost, sticky := x.sticky.setUrgent, lastLost := some q.stamp,
             firstLost := if x.lost = 0 then some q.stamp else x.firstLost }

/-- Events handed over in order, with the same stamp. No write of the queue's head comes between two of them, though R187
lets an arrival at a full queue and that write fall in either order: the events of one step past the 32nd are dropped even
where ENABLE is 1 and a block is free, which is the model's choice (log entry 43). -/
def Exchange.joinAll (x : Exchange) (stamp : Word) (es : List Event) : Exchange :=
  es.foldl (fun y e => y.join { stamp := stamp, event := e }) x

/-- A block hands an event over, stamped with the running frame number (R152, R187). -/
def State.raise (s : State) (e : Event) : State := s.setEx (s.ex.join { stamp := s.frame, event := e })

/-- Events handed over in order, stamped with the running frame number. -/
def State.raiseAll (s : State) (es : List Event) : State := s.setEx (s.ex.joinAll s.frame es)

end Sys2Proof.Machine
end

