-- ==== Sys2Proof/Machine/Gain.lean ====
section
/-! DEFINITION. The gain arithmetic of Chapter 1: the digital gain of a crosspoint, the six stages from converter sample
to output sample, and the rounding of analog codes. -/

namespace Sys2Proof.Machine

/-- The mantissa table M, entries 0 to 23 (R13). -/
def mantissaTable : List Int :=
  [32768, 33728, 34716, 35734, 36781, 37859, 38968, 40110, 41285, 42495, 43740, 45022,
   46341, 47699, 49097, 50535, 52016, 53540, 55109, 56724, 58386, 60097, 61858, 63670]

/-- M[k] (R13). -/
def mantissa (k : Nat) : Int := mantissaTable.getD k 0

/-- The largest sample (section "Samples" of the conventions). -/
def maxSample : Int := 8388607

/-- The smallest sample. -/
def minSample : Int := -8388608

/-- The raw gain of a crosspoint at an applied level (R6). -/
def Xp.raw (x : Xp) (lapp : Int) : Int :=
  match x.mode with
  | .track r => x.trim + r - lapp
  | .owner | .follow => x.trim

/-- The digital gain G of a crosspoint at an applied level (R7). -/
def Xp.gain (x : Xp) (lapp : Int) : Int := clampGain (x.raw lapp)

/-- Whether a raw gain lies outside −240 to +96 (R7). -/
def outOfRange (raw : Int) : Bool := decide (raw < -240) || decide (96 < raw)

/-- The level at which a feed hears a channel, before mute (R8). -/
def Xp.heard (x : Xp) (lapp : Int) : Int := lapp + x.gain lapp

/-- Stage 1: e, the floor of G / 24 (R12). -/
def stageE (g : Int) : Int := g / 24

/-- Stage 1: k = G − 24e (R12). -/
def stageK (g : Int) : Nat := (g - 24 * stageE g).toNat

/-- Stage 1: the shift s = 15 − e (R12). -/
def stageShift (g : Int) : Nat := (15 - stageE g).toNat

/-- Stages 2 and 3: the product, rounded and scaled; an exact half goes toward plus infinity (R13, R14). -/
def stageScale (x g : Int) : Int := (x * mantissa (stageK g) + 2 ^ (stageShift g - 1)) / 2 ^ stageShift g

/-- Stage 4: saturation to 24 bits, and whether it happened (R15). -/
def stageSaturate (y : Int) : Int × Bool :=
  if maxSample < y then (maxSample, true) else if y < minSample then (minSample, true) else (y, false)

/-- Stage 5: invert, and whether it saturated (R16). -/
def stageInvert (invert : Bool) (y : Int) : Int × Bool :=
  if invert then (if y = minSample then (maxSample, true) else (-y, false)) else (y, false)

/-- Stage 6: the mute conditions (R17). -/
def stageMute (muted : Bool) (y : Int) : Int := if muted then 0 else y

/-- The six stages: the output sample, and whether stage 4 or 5 saturated (R11 to R17). -/
def sampleOut (x g : Int) (invert muted : Bool) : Int × Bool :=
  let y2 := stageSaturate (stageScale x g)
  let y3 := stageInvert invert y2.1
  (stageMute muted y3.1, y2.2 || y3.2)

/-- A channel is in ramp mute while its phantom supply ramps (R91). -/
def Chan.rampMute (ch : Chan) : Bool := ch.phantom == .rampUp || ch.phantom == .rampDown

/-- The mute conditions of a crosspoint (R17). -/
def mutedAt (ch : Chan) (x : Xp) : Bool := x.mute || ch.rampMute || ch.startup

/-- A requested code brought onto the grid of analog codes, 0 to 240 in steps of 6, a remainder of 3 rounding down
(R55, R93, R176). -/
def roundCode (n : Nat) : Nat :=
  if 240 < n then 240 else if n % 6 ≤ 3 then n - n % 6 else n + (6 - n % 6)

/-- A number brought into a range (R176). -/
def clampNat (lo hi n : Nat) : Nat := max lo (min hi n)

/-! ### Continuity on a change of mode (R51, R52) -/

/-- The cause of a change of the limited flag (R69): a change that takes the raw gain from one side of the clamp bounds to the
other is the cause, and any other change leaves the cause as it was (log entry 7). Once a swap has altered the crosspoint the
cause stays SCENE until the swap's first sample, since every flag that differs there is its doing (R124). -/
def Xp.causeOf (x : Xp) (before after : Int) (k : LimitCause) : LimitCause :=
  if x.cause = .scene ∨ outOfRange before = outOfRange after then x.cause else k

/-- A crosspoint enters TRACK: its reference is the applied level, its trim is kept; one already in TRACK is left as it is
(R51). Until its first new sample it takes the reference again with every change of the applied level. Its raw gain is its
trim before and after, so that it never moves its limited flag. -/
def Xp.enterTrack (x : Xp) (lapp : Int) : Xp :=
  match x.mode with
  | .track _ => x
  | .owner | .follow => { x with mode := .track lapp, continuity := .entered }

/-- The trim and the reference that a crosspoint folds into its trim when it leaves TRACK (R52): none outside TRACK, and none
where no sample has used the TRACK yet, since its trim has not moved. -/
def Xp.foldOwed (x : Xp) : Option (Int × Int) :=
  match x.mode with
  | .track r => if x.continuity = .entered then none else some (x.trim, r)
  | .owner | .follow => none

/-- What a fold of a trim and a reference gives at an applied level, before its clamp (R52). -/
def foldRaw (p : Int × Int) (lapp : Int) : Int := p.1 + p.2 - lapp

/-- A crosspoint leaves TRACK for OWNER or FOLLOW and folds its compensation into its trim; one outside TRACK keeps its
trim (R52, R60). -/
def Xp.leaveTrack (x : Xp) (mode : XpMode) (lapp : Int) : Xp :=
  match x.foldOwed with
  | some p =>
    { x with
      mode := mode, trim := clampGain (foldRaw p lapp), continuity := .folded p.1 p.2
      cause := x.causeOf (x.raw lapp) (clampGain (foldRaw p lapp)) .request }
  | none => { x with mode := mode, continuity := if x.continuity = .entered then .settled else x.continuity }

/-- A crosspoint meets a new applied level. What R51 and R52 still owe it is made again from that level, since the rule reads
the level that its first new sample uses (section 3.2); a settled one keeps its record, and its flag moves by LEVEL where
the level takes its raw gain across a bound (R69). -/
def Xp.relevel (x : Xp) (old new : Int) : Xp :=
  match x.continuity with
  | .settled => { x with cause := x.causeOf (x.raw old) (x.raw new) .level }
  | .entered =>
    match x.mode with
    | .track _ => { x with mode := .track new }
    | .owner | .follow => x
  | .folded t r => { x with trim := clampGain (foldRaw (t, r) new) }

/-- Whether the fold that a reply waits for is clamped at the applied level of its first new sample (R52). -/
def XpReply.foldClamped (r : XpReply) (lapp : Int) : Bool :=
  match r.fold with
  | some p => clampGain (foldRaw p lapp) != foldRaw p lapp
  | none => false

end Sys2Proof.Machine
end

