-- ==== Sys2Proof/Machine/Tracker.lean ====
section
/-! DEFINITION. The Gain Tracker's work on one channel record (Chapter 4): targets, settle check, cancellation, the grant,
the answer, failure, readback and phantom. Each operation gives the new record and the events it hands over, in
order. -/

namespace Sys2Proof.Machine

/-! ### The start and the end of an operation -/

/-- ZC_WAIT is entered: the window count is 480 (R73). -/
def Chan.enterZc (ch : Chan) : Chan :=
  { ch with op := .zcWait, window := Config.crossingWindow, fresh := true }

/-- An operation starts: open, with counts 0 and the setter's tag (R71). -/
def Chan.opening (tag : Option Half) (ch : Chan) : Chan :=
  { ch with opened := true, superseded := 0, forced := 0, tag := tag }

/-- The GAIN_CANCELLED event of a cancel note (R82). -/
def Chan.cancelledEvent (c : ChanId) (ch : Chan) (n : CancelNote) : Event :=
  .gainCancelled c n ch.ack ch.ackPhantom ch.level

/-- The event that ends an open operation: GAIN_DONE, or GAIN_CANCELLED when a cancel note is held (R78, R80). -/
def Chan.endEvent (c : ChanId) (ch : Chan) : Event :=
  match ch.note with
  | none => .gainDone c ch.ack ch.level ch.tag ch.forced ch.superseded
  | some n => ch.cancelledEvent c n

/-- The operation is closed: open, the urgent mark and the cancel note are cleared, with one event if it was open
(R78). -/
def Chan.close (c : ChanId) (ch : Chan) : Chan × List Event :=
  ({ ch with opened := false, urgent := false, note := none }, if ch.opened then [ch.endEvent c] else [])

/-- The operation is closed and the state becomes IDLE (R78, R79). -/
def Chan.closeIdle (c : ChanId) (ch : Chan) : Chan × List Event :=
  ({ (ch.close c).1 with op := .idle }, (ch.close c).2)

/-- The settle check (R78); the resumption after a readback makes the same comparison (R84 step 5). -/
def Chan.settleCheck (c : ChanId) (ch : Chan) : Chan × List Event :=
  if ch.tgt = ch.ack then ch.closeIdle c else (ch.enterZc, [])

/-! ### Targets (R71, R79) -/

/-- The operation responds to a target just stored (R79), in ACK_WAIT with no step carried as its resume state would
(R89). A start takes the setter's tag. An operation in ZC_WAIT, LINE_WAIT, SETTLING or ACK_WAIT, with a step carried or with a
resume state of ZC_WAIT or SETTLING, that is not open stays so: the manual does not say whether the target opens it, and this
is the model's choice (log entry 36). -/
def Chan.respond (c : ChanId) (tag : Option Half) (ch : Chan) : Chan × List Event :=
  match ch.op with
  | .idle => if ch.tgt = ch.ack then (ch, []) else ((ch.opening tag).enterZc, [])
  | .zcWait | .lineWait => if ch.tgt = ch.ack then ch.closeIdle c else (ch, [])
  | .ackWait =>
    match ch.carried, ch.resume with
    | .nothing, .idle => if ch.tgt = ch.ack then (ch, []) else ({ ch.opening tag with resume := .zcWait }, [])
    | .nothing, .zcWait =>
      if ch.tgt = ch.ack then ({ (ch.close c).1 with resume := .idle }, (ch.close c).2) else (ch, [])
    | .nothing, .settling => (ch, [])
    | .pad, _ | .up, _ | .down, _ => (ch, [])
  | .settling => (ch, [])
  | .suspect => if ch.tgt = ch.ack ∨ ch.opened = true then (ch, []) else (ch.opening tag, [])

/-- What a request or a swap records with a target (R71): the tag, the set flag, the urgent mark cleared, the target it
replaces counted if the operation is open; a held cancel note makes the target an operation of its own (R82). -/
def Chan.record (tag : Option Half) (t : Setting) (ch : Chan) : Chan :=
  { ch with
    tgt := t, tgtSet := true, urgent := false, tag := tag, note := none
    superseded := if ch.note.isSome then 0 else if ch.opened then satSucc ch.superseded else ch.superseded
    forced := if ch.note.isSome then 0 else ch.forced }

/-- A request or a swap sets the target (R71, R79, R82). A held cancel note ends with GAIN_CANCELLED and the target goes on
as an operation of its own, so that one equal to the acknowledged setting in ZC_WAIT or LINE_WAIT ends with GAIN_DONE at
once: two events, where R79 speaks of one. This is the model's choice (log entry 37). -/
def Chan.requestTarget (c : ChanId) (tag : Option Half) (t : Setting) (ch : Chan) : Chan × List Event :=
  let r := (ch.record tag t).respond c tag
  (r.1, (ch.note.map (ch.cancelledEvent c)).toList ++ r.2)

/-- The guard lowers the target and marks the operation (R71, R108): the tag, the superseded count and the target-set
flag are not touched, and a start has no tag. -/
def Chan.guardTarget (c : ChanId) (t : Setting) (ch : Chan) : Chan × List Event :=
  let r := if t = ch.tgt then (ch, []) else { ch with tgt := t }.respond c none
  ({ r.1 with urgent := true }, r.2)

/-! ### A change of owner in flight (R81, R82) -/

/-- What abandons an operation whose step has not been commanded (R81): its event, and open, tag, urgent mark and note
cleared, with the target back at the acknowledged setting. -/
def Chan.abandon (c : ChanId) (cause : OwnCause) (ch : Chan) : Chan × List Event :=
  ({ ch with tgt := ch.ack, opened := false, tag := none, urgent := false, note := none },
   [ch.cancelledEvent c { tag := ch.tag, target := ch.tgt, superseded := ch.superseded, cause := cause }])

/-- What a commanded step leaves when the owner changes (R82): the sent state as target, and a cancel note. -/
def Chan.noteCancel (cause : OwnCause) (ch : Chan) : Chan :=
  { ch with
    tgt := match ch.lastSent with
      | some l => l.sent.setting
      | none => ch.ack
    note := some { tag := ch.tag, target := ch.tgt, superseded := ch.superseded, cause := cause }
    tag := none, superseded := 0, forced := 0, urgent := false }

/-- A change of owner by CLAIM, takeover, RELEASE or feed disable cancels an open operation (R81, R82, R89). -/
def Chan.cancel (c : ChanId) (cause : OwnCause) (ch : Chan) : Chan × List Event :=
  if ch.opened = false then (ch, [])
  else match ch.op with
    | .idle => (ch, [])
    | .zcWait | .lineWait => ({ (ch.abandon c cause).1 with op := .idle }, (ch.abandon c cause).2)
    | .suspect => ch.abandon c cause
    | .settling => (ch.noteCancel cause, [])
    | .ackWait =>
      match ch.carried, ch.resume with
      | .nothing, .idle => (ch, [])
      | .nothing, .zcWait => ({ (ch.abandon c cause).1 with resume := .idle }, (ch.abandon c cause).2)
      | .nothing, .settling | .pad, _ | .up, _ | .down, _ => (ch.noteCancel cause, [])

/-! ### The grant (R75, R89) -/

/-- The channel asks for the line for a phantom change (R88). -/
def Chan.asksPhantom (ch : Chan) : Bool :=
  ch.phantomTgt != ch.ackPhantom && ch.op != .ackWait && ch.op != .suspect && ch.op != .lineWait

/-- The channel asks for the line (R42). -/
def Chan.asks (ch : Chan) : Bool := ch.op == .lineWait || ch.asksPhantom

/-- The channel's class is URGENT: it asks for a marked step (R42, R74). -/
def Chan.asksUrgent (ch : Chan) : Bool := ch.op == .lineWait && ch.urgent

/-- The step that a grant from LINE_WAIT carries, with the setting it sends (R75). -/
def Chan.nextStep (ch : Chan) : CarriedStep × Setting :=
  if ch.tgt.padIn ≠ ch.ack.padIn then (.pad, { ch.ack with padIn := ch.tgt.padIn })
  else if ch.ack.analog < ch.tgt.analog then (.up, { ch.ack with analog := ch.ack.analog + 6 })
  else if ch.tgt.analog < ch.ack.analog then (.down, { ch.ack with analog := ch.ack.analog - 6 })
  else (.nothing, ch.ack)

/-- What a grant sends: the step decided at that moment from LINE_WAIT, the acknowledged setting otherwise, each with the
phantom target (R75, R89). -/
def Chan.toSend (ch : Chan) : SentState :=
  { setting := if ch.op = .lineWait then ch.nextStep.2 else ch.ack, phantom := ch.phantomTgt }

/-- The record after a grant (R75, R89). -/
def Chan.granted (ch : Chan) : Chan :=
  { ch with
    op := .ackWait
    carried := if ch.op = .lineWait then ch.nextStep.1 else .nothing
    resume := match ch.op with
      | .zcWait => .zcWait
      | .settling => .settling
      | .idle | .lineWait | .ackWait | .suspect => .idle
    lastSent := some { sent := ch.toSend, failed := false } }

/-! ### Phantom (R90, R92) -/

/-- A phantom-fault flag that is on (R92). -/
def Chan.faultPhantom (c : ChanId) (ch : Chan) : Chan × List Event :=
  ({ ch with phantom := .faulted, ramp := 0, phantomTgt := false, ackPhantom := false },
   if ch.phantom = .faulted then [] else [.phantom c .faulted true ch.ack])

/-- The phantom fields of an answer (R90, R92). -/
def Chan.answerPhantom (c : ChanId) (held fault : Bool) (ch : Chan) : Chan × List Event :=
  if fault then ch.faultPhantom c
  else if held = ch.ackPhantom then (ch, [])
  else ({ ch with ackPhantom := held, phantom := if held then .rampUp else .rampDown, ramp := Config.rampPeriods }, [])

/-! ### The answer to a STEP (R76, R89) -/

/-- The analog code and pad of an answer: a change joins the pending applications list, due 40 sample periods later (R76
step 2, R77). R70 has the due samples rise strictly; nothing here keeps them so, and that no two answers of a channel that
change its setting fall in one sample period is what the model takes of the senders (log entry 45). -/
def Chan.answerSetting (now : Word) (held : Setting) (ch : Chan) : Chan :=
  if held = ch.ack then ch
  else { ch with ack := held, pend := ch.pend ++ [{ setting := held, due := now + Config.conversionDelay }] }

/-- The MISMATCH of a STEP answer (R76 step 3, R87). -/
def answerMismatch (c : ChanId) (sent held : SentState) (fault : Bool) : List Event :=
  if fault ∨ sent = held then [] else [.mismatch c .stepAnswer sent held false false false]

/-- Where the operation goes when its transaction ends in success (R76 step 4, R89). -/
def Chan.afterAnswer (c : ChanId) (ch : Chan) : Chan × List Event :=
  if ch.pend ≠ [] then ({ ch with op := .settling }, [])
  else match ch.carried, ch.resume with
    | .nothing, .settling => ch.settleCheck c
    | .nothing, .zcWait => (ch.enterZc, [])
    | .nothing, .idle => if ch.tgt = ch.ack then ({ ch with op := .idle }, []) else (ch.enterZc, [])
    | .pad, _ | .up, _ | .down, _ => ch.settleCheck c

/-- A good STEP answer (R76). -/
def Chan.stepAnswer (c : ChanId) (now : Word) (sent held : SentState) (fault : Bool) (ch : Chan) : Chan × List Event :=
  let p := ch.answerPhantom c held.phantom fault
  let r := (p.1.answerSetting now held.setting).afterAnswer c
  (r.1, p.2 ++ answerMismatch c sent held fault ++ r.2)

/-! ### Failure (R82, R83) -/

/-- A failed STEP transaction makes the channel SUSPECT, marks the last sent state failed, and ends a cancelled operation
(R82, R83). -/
def Chan.failStep (c : ChanId) (ch : Chan) : Chan × List Event :=
  ({ ch with
     op := .suspect
     lastSent := ch.lastSent.map fun l => { l with failed := true }
     opened := if ch.note.isSome then false else ch.opened
     note := none },
   (ch.note.map (ch.cancelledEvent c)).toList)

/-- The channel's board has gone OFFLINE (R83). -/
def Chan.boardLost (ch : Chan) : Chan := { ch with op := .suspect }

/-! ### Readback (R84 to R87) -/

/-- The phantom a readback pair reports; a faulted supply is reported as off (R27, R92). -/
def readPhantom (read : SentState) (fault : Bool) : Bool := read.phantom && !fault

/-- The MISMATCH of a readback (R84 step 2, R87). -/
def Chan.readMismatch (c : ChanId) (found : SentState) (ch : Chan) : List Event :=
  let suspect := ch.op == .suspect
  let failed := match ch.lastSent with
    | some l => suspect && l.failed
    | none => false
  let equal := match ch.lastSent with
    | some l => failed && l.sent == found
    | none => false
  if found.setting = ch.ack ∧ found.phantom = ch.ackPhantom then []
  else [.mismatch c .readback { setting := ch.ack, phantom := ch.ackPhantom } found suspect failed equal]

/-- The acknowledged and applied settings take the read values at once, and the list is emptied (R84 step 3). -/
def Chan.adopt (found : SentState) (ch : Chan) : Chan :=
  { ch with ack := found.setting, ackPhantom := found.phantom, app := found.setting, pend := [], lastSent := none }

/-- The phantom state settled at once by a read phantom (R84 step 4, R91). -/
def Chan.settlePhantom (on : Bool) (ch : Chan) : Chan := { ch with phantom := if on then .on else .off, ramp := 0 }

/-- Steps 1 to 4 of R84. -/
def Chan.readUpdate (c : ChanId) (read : SentState) (fault : Bool) (ch : Chan) : Chan × List Event :=
  let p := if fault then ch.faultPhantom c else (ch, [])
  let found : SentState := { read with phantom := readPhantom read fault }
  let a := p.1.adopt found
  (if !fault && found.phantom != p.1.ackPhantom then a.settlePhantom found.phantom else a,
   p.2 ++ p.1.readMismatch c found)

/-- The start-up readback of a channel (R86). -/
def Chan.startUp (c : ChanId) (read : SentState) (fault : Bool) (ch : Chan) : Chan × List Event :=
  let found : SentState := { read with phantom := readPhantom read fault }
  let t := { ch with
    tgt := if ch.tgtSet then ch.tgt else found.setting
    phantomTgt := if ch.phantomTgtSet then ch.phantomTgt else found.phantom }
  let a := t.adopt found
  let p := if fault then a.faultPhantom c else (a.settlePhantom found.phantom, [])
  let r := { p.1 with startup := false }.settleCheck c
  (r.1, p.2 ++ r.2)

/-- What a readback that disagrees does to the operation of a channel that is not SUSPECT (R85). -/
def Chan.afterDisagreement (c : ChanId) (ch : Chan) : Chan × List Event :=
  match ch.op with
  | .zcWait | .lineWait => if ch.tgt = ch.ack then ch.closeIdle c else (ch, [])
  | .settling => ch.settleCheck c
  | .idle => if ch.tgt = ch.ack then (ch, []) else ((ch.opening ch.tag).enterZc, [])
  | .ackWait | .suspect => (ch, [])

/-- A good readback's state of one channel (R84, R85, R86). -/
def Chan.readback (c : ChanId) (read : SentState) (fault : Bool) (ch : Chan) : Chan × List Event :=
  if ch.startup then ch.startUp c read fault
  else if ch.op = .suspect then
    let u := ch.readUpdate c read fault
    let r := u.1.settleCheck c
    (r.1, u.2 ++ r.2)
  else if read.setting = ch.ack ∧ read.phantom = ch.ackPhantom then
    (if fault then ch.faultPhantom c else (ch, []))
  else
    let u := ch.readUpdate c read fault
    let r := u.1.afterDisagreement c
    (r.1, u.2 ++ r.2)

/-! ### What falls due (R73, R77, R91) -/

/-- The crossing window has run out without a crossing (R73). -/
def Chan.forcedDue (ch : Chan) : Bool := ch.op == .zcWait && ch.window == 0

/-- The step is forced (R73). -/
def Chan.force (ch : Chan) : Chan := { ch with op := .lineWait, forced := satSucc ch.forced }

/-- The head of the pending applications list is due (R77). -/
def Chan.applicationDue (now : Word) (ch : Chan) : Bool :=
  match ch.pend with
  | [] => false
  | e :: _ => e.due == now

/-- The head of the list applies, and a list that it empties in SETTLING runs the settle check (R77). -/
def Chan.applyHead (c : ChanId) (ch : Chan) : Chan × List Event :=
  match ch.pend with
  | [] => (ch, [])
  | e :: rest =>
    let a := { ch with app := e.setting, pend := rest }
    if a.op = .settling ∧ rest = [] then a.settleCheck c else (a, [])

/-- The ramp has run out (R91). -/
def Chan.rampDue (ch : Chan) : Bool := ch.rampMute && ch.ramp == 0

/-- The ramp ends: the phantom state becomes what the board acknowledged (R91). -/
def Chan.endRamp (c : ChanId) (ch : Chan) : Chan × List Event :=
  let st : PhantomState := if ch.ackPhantom then .on else .off
  ({ ch with phantom := st }, [.phantom c st false ch.ack])

/-! ### On the state -/

/-- A channel's record becomes what a Gain Tracker operation gives, a new applied level reaches the crosspoints of the
channel (R9, R77), and the operation's events are handed over. -/
def State.putChan (s : State) (c : ChanId) (r : Chan × List Event) : State :=
  { s with
    chans := upd s.chans c r.1
    xps := if r.1.level = (s.chan c).level then s.xps
      else upd s.xps c (PerFeed.of fun f => (s.xp c f).relevel (s.chan c).level r.1.level)
    ex := s.ex.joinAll s.frame r.2 }

end Sys2Proof.Machine
end

