-- ==== Sys2Proof/Machine/Line.lean ====
section
/-! DEFINITION. The Preamp Line Controller (sections 2.2 to 2.6): characters, transactions, boards and the arbiter. -/

namespace Sys2Proof.Machine

/-! ### Characters (R28, R29, R184) -/

/-- The number of 1 bits of a byte. -/
def onesOf (v : Byte) : Nat := (List.range 8).countP fun i => v.getLsbD i

/-- Whether the number of 1 bits among data, address flag and check bit is even (R28, R29). -/
def evenParity (ch : LineChar) : Bool :=
  (onesOf ch.data + ch.address.toNat + ch.check.toNat) % 2 == 0

/-- A character the part sends: the check bit makes the parity even, the stop bit is 1 (R28). -/
def sendChar (data : Byte) (address : Bool) : LineChar :=
  { data := data, address := address, check := (onesOf data + address.toNat) % 2 == 1, stop := true }

/-- The twelve bits of a character in the order they are sent: start bit 0, data bits 0 to 7, address flag, check bit,
stop bit (R28, R184). -/
def charBits (ch : LineChar) : List Bool :=
  false :: ((List.range 8).map fun i => ch.data.getLsbD i) ++ [ch.address, ch.check, ch.stop]

/-- The address character of a command to a board (R30). -/
def addressData (b : BoardId) (command : Nat) : Byte := u8 (b.val * 16 + command)

/-- The position that stands for an analog code (R1). -/
def positionOf (analog : Int) : Nat := (analog / 6).toNat

/-- The three characters of a STEP (R32, R184). -/
def stepChars (c : ChanId) (sent : SentState) : List LineChar :=
  [sendChar (addressData (boardOf c) 1) true,
   sendChar (u8 ((placeOf c).val + (if sent.setting.padIn then 8 else 0) + (if sent.phantom then 16 else 0))) false,
   sendChar (u8 (positionOf sent.setting.analog)) false]

/-- The character of a READBACK (R34). -/
def readbackChars (b : BoardId) : List LineChar := [sendChar (addressData b 2) true]

/-- The answer characters a transaction awaits (section 2.3). -/
def TxKind.expected : TxKind → Nat
  | .step _ _ => 2
  | .readback => 16

/-- The place within the board that the answer character number n must echo (R33, R34). -/
def TxKind.place (k : TxKind) (n : Nat) : Nat :=
  match k with
  | .step c _ => (placeOf c).val
  | .readback => n / 2

/-- The content checks on a sound answer character, the nth of its answer (R33, R34, R184). -/
def contentFails (k : TxKind) (n : Nat) (ch : LineChar) : Bool :=
  ch.address || (if n % 2 = 0 then ch.data.toNat % 8 != k.place n else decide (40 < ch.data.toNat % 64))

/-- The error of an answer character, the nth of its answer (R29, R33, R34). -/
def charError (k : TxKind) (n : Nat) (ch : LineChar) : Option LineError :=
  if ch.stop = false then some .framing
  else if evenParity ch = false then some .check
  else if contentFails k n ch then some .check
  else none

/-- The state that a pair of answer characters reports (R33, R184). -/
def pairState (first second : Byte) : SentState :=
  { setting := { analog := 6 * (second.toNat % 64 : Nat), padIn := first.getLsbD 3 }, phantom := first.getLsbD 4 }

/-- The phantom-fault flag of a pair (R184). -/
def pairFault (first : Byte) : Bool := first.getLsbD 5

/-! ### The arbiter (R42 to R46) -/

/-- The channel a requester is, or the board (section 2.5). -/
def requesterOf (r : ReqId) : ChanId ⊕ BoardId :=
  if h : r.val < 64 then .inl ⟨r.val, h⟩ else .inr ⟨r.val - 64, by omega⟩

/-- A requester asks for the line (R42). -/
def State.asks (s : State) (r : ReqId) : Bool :=
  match requesterOf r with
  | .inl c => (s.chan c).asks
  | .inr b => (s.board b).request == .asking

/-- A requester's class is URGENT (R42). -/
def State.urgentReq (s : State) (r : ReqId) : Bool :=
  match requesterOf r with
  | .inl c => (s.chan c).asksUrgent
  | .inr _ => false

/-- The requesters in the order of a search that starts at a pointer (R44). -/
def searchOrder (p : ReqId) : List ReqId :=
  (indices 72).map fun i => ⟨(p.val + i.val) % 72, Nat.mod_lt _ (by omega)⟩

/-- The requester after one, with 71 followed by 0 (R44). -/
def nextReq (r : ReqId) : ReqId := ⟨(r.val + 1) % 72, Nat.mod_lt _ (by omega)⟩

/-- Some requester asks for the line. -/
def State.anyAsks (s : State) : Bool := (indices 72).any fun r => s.asks r

/-- The requesters a decision considers (R43): all that ask, when a transaction has ended or when the one that is said to
have asked first does not ask; otherwise that one alone, which is granted at once. -/
def State.considered (s : State) (first : Option ReqId) (r : ReqId) : Bool :=
  match first with
  | none => s.asks r
  | some q => if s.arb.together || !s.asks q then s.asks r else r == q

/-- Whether the class chosen is URGENT (R45): `u` says that an URGENT requester asks, `o` that an ORDINARY one does. -/
def chooseUrgent (fairness : Nat) (u o : Bool) : Bool := !(fairness == 4 && o) && u

/-- The requester a decision grants, with whether its class is URGENT, and whether an ORDINARY requester asked (R44,
R45). -/
def State.choose (s : State) (first : Option ReqId) : Option (ReqId × Bool × Bool) :=
  let considered := s.considered first
  let u := (indices 72).any fun r => considered r && s.urgentReq r
  let o := (indices 72).any fun r => considered r && !s.urgentReq r
  let urgent := chooseUrgent s.arb.fairness u o
  let start := if urgent then s.arb.urgentPtr else s.arb.ordinaryPtr
  ((searchOrder start).find? fun r => considered r && (s.urgentReq r == urgent)).map fun r => (r, urgent, o)

/-- The arbiter after a grant (R44, R45). -/
def Arbiter.afterGrant (a : Arbiter) (r : ReqId) (urgent ordinaryAsked : Bool) : Arbiter :=
  { urgentPtr := if urgent then nextReq r else a.urgentPtr
    ordinaryPtr := if urgent then a.ordinaryPtr else nextReq r
    fairness := if urgent && ordinaryAsked then a.fairness + 1 else 0
    together := false }

/-- A STEP transaction is granted to a channel (R32, R75, R89). -/
def State.startStep (s : State) (c : ChanId) : State :=
  let sent := (s.chan c).toSend
  { s.setChan c (s.chan c).granted with
    line := some { kind := .step c sent, board := boardOf c, data := [], firstError := none, window := 0 }
    lineOut := stepChars c sent }

/-- A READBACK transaction is granted to a board (R34, R39). -/
def State.startReadback (s : State) (b : BoardId) : State :=
  { s.setBoard b { s.board b with request := .idle } with
    line := some { kind := .readback, board := b, data := [], firstError := none, window := 0 }
    lineOut := readbackChars b }

/-- A grant starts the requester's transaction (R31). -/
def State.startFor (s : State) (r : ReqId) : State :=
  match requesterOf r with
  | .inl c => s.startStep c
  | .inr b => s.startReadback b

/-- The arbiter makes a decision if the line is IDLE and a requester asks (R43). -/
def State.arbitrate (s : State) (first : Option ReqId) : State :=
  if s.line.isSome then s
  else match s.choose first with
    | none => s
    | some (r, urgent, o) => { s.startFor r with arb := s.arb.afterGrant r urgent o }

/-! ### The end of a transaction (R35, R37, R38) -/

/-- The line returns to IDLE, and a decision is owed to every requester that asks then (R31, R43). -/
def State.freeLine (s : State) : State :=
  { s with line := none, arb := { s.arb with together := s.anyAsks } }

/-- A successful STEP (R38, R76). -/
def State.stepSucceeds (s : State) (c : ChanId) (sent : SentState) (data : List Byte) : State :=
  let first := data.getD 0 0#8
  let held := pairState first (data.getD 1 0#8)
  let s1 := s.setBoard (boardOf c) { s.board (boardOf c) with failures := 0 }
  s1.putChan c ((s1.chan c).stepAnswer c s1.frame sent held (pairFault first))

/-- A good readback hands its eight channel states over in channel order (R34, R84 to R86). All events of one channel come
before those of the next: R87 orders the MISMATCH events by channel and the events at one channel, and that a GAIN_DONE or
GAIN_CANCELLED of one channel precedes the PHANTOM and MISMATCH of the next is the model's choice (log entry 15). -/
def State.readbackChans (s : State) (b : BoardId) (data : List Byte) : State :=
  (indices 8).foldl (fun t i =>
    let first := data.getD (2 * i.val) 0#8
    let c := chanAt b i
    t.putChan c ((t.chan c).readback c (pairState first (data.getD (2 * i.val + 1) 0#8)) (pairFault first))) s

/-- A successful READBACK (R38). -/
def State.readbackSucceeds (s : State) (b : BoardId) (data : List Byte) : State :=
  let wasOffline := (s.board b).offline
  let s1 := (s.setBoard b { s.board b with failures := 0, offline := false }).readbackChans b data
  if wasOffline then s1.raise (.preamp b .online) else s1

/-- The board record after a failure's count (R37). -/
def Board.failed (x : Board) : Board :=
  { x with failures := min 3 (x.failures + 1), offline := x.offline || decide (3 ≤ x.failures + 1) }

/-- A failure that moved the board from ONLINE to OFFLINE: its channels become SUSPECT and an OFFLINE event is handed
over (R37 step 3). -/
def State.boardOffline (s : State) (b : BoardId) (err : LineError) : State :=
  let s1 := (indices 8).foldl (fun t i => t.setChan (chanAt b i) (t.chan (chanAt b i)).boardLost) s
  s1.raise (.preamp b (.offline err))

/-- A failed STEP (R37 step 1). -/
def State.stepFails (s : State) (c : ChanId) (err : LineError) : State :=
  let b := boardOf c
  let s1 := s.setBoard b { (s.board b).failed with request := .asking, countdown := 0 }
  let s2 := s1.putChan c ((s1.chan c).failStep c)
  s2.raise (.preamp b (.stepFailed c err (s1.board b).failures))

/-- A failed READBACK (R37 step 2, R39). -/
def State.readbackFails (s : State) (b : BoardId) : State :=
  let x := (s.board b).failed
  s.setBoard b (if x.request = .idle then { x with request := .deferred, countdown := Config.readbackDeferral } else x)

/-- A transaction ends in failure (R37). -/
def State.txFails (s : State) (t : InFlight) (err : LineError) : State :=
  let wasOffline := (s.board t.board).offline
  let s1 := match t.kind with
    | .step c _ => s.stepFails c err
    | .readback => s.readbackFails t.board
  if !wasOffline && (s1.board t.board).offline then s1.boardOffline t.board err else s1

/-- A transaction ends in success (R38). -/
def State.txSucceeds (s : State) (t : InFlight) : State :=
  match t.kind with
  | .step c sent => s.stepSucceeds c sent t.data
  | .readback => s.readbackSucceeds t.board t.data

/-- A transaction whose last expected character has arrived ends (R35). -/
def State.txComplete (s : State) (t : InFlight) : State :=
  match t.firstError with
  | none => (s.txSucceeds t).freeLine
  | some err => (s.txFails t err).freeLine

/-- The in-flight record after one more answer character (R35): it is counted, and the earliest error is kept. -/
def InFlight.receive (t : InFlight) (ch : LineChar) : InFlight :=
  { t with
    data := t.data ++ [ch.data]
    firstError := match t.firstError with
      | some e => some e
      | none => charError t.kind t.data.length ch }

/-- A character arrives on the line: discarded while IDLE, otherwise counted, and the last expected one ends the
transaction (R29, R35). -/
def State.receiveChar (s : State) (ch : LineChar) : State :=
  match s.line with
  | none => s
  | some t =>
    let t' := t.receive ch
    if t.kind.expected ≤ t'.data.length then s.txComplete t' else { s with line := some t' }

/-- The answer window of the transaction in flight has run out (R35). -/
def State.windowDue (s : State) : Bool :=
  match s.line with
  | none => false
  | some t => decide (Config.answerWindow ≤ t.window)

/-- The answer window expires: the transaction ends in failure with its first error, or TIMEOUT (R35). A character
that arrives before this step, in the period in which the window has run out, still counts, which is the model's choice (log
entry 44). -/
def State.windowExpires (s : State) : State :=
  match s.line with
  | none => s
  | some t =>
    if Config.answerWindow ≤ t.window then (s.txFails t (t.firstError.getD .timeout)).freeLine else s

/-! ### Readback requests (R39, R40, R48) -/

/-- A board's readback request is set to ASKING, a DEFERRED countdown dropped (R39, R48). -/
def Board.ask (x : Board) : Board := { x with request := .asking, countdown := 0 }

/-- A DEFERRED countdown lowered by one at a block boundary (R40). -/
def Board.tick (x : Board) : Board :=
  if x.request = .deferred then { x with countdown := x.countdown - 1 } else x

/-- A DEFERRED countdown has reached 0 (R40). -/
def Board.retryDue (x : Board) : Bool := x.request == .deferred && x.countdown == 0

/-- The Preamp Line Controller's work at a block boundary (R40). -/
def State.lineBoundary (s : State) : State := { s with boards := tab fun b => s.boards[b].tick }

/-- A DEFERRED readback request whose countdown has reached 0 turns ASKING (R40). -/
def State.retryReadback (s : State) (b : BoardId) : State :=
  if (s.board b).retryDue then s.setBoard b (s.board b).ask else s

end Sys2Proof.Machine
end

