-- ==== Sys2Proof/Machine/Reports.lean ====
section
/-! DEFINITION. The codes of section 9.7 and the reports the part writes (R181). -/

namespace Sys2Proof.Machine

/-- An owner or senior feed: 0 none, 1 to 4 A to D (R180, R181). -/
def ownerByte : Option Feed → Byte
  | none => 0#8
  | some .a => 1#8
  | some .b => 2#8
  | some .c => 3#8
  | some .d => 4#8

/-- A feed: 0 to 3 for A to D (R173, R181). -/
def feedByte : Feed → Byte
  | .a => 0#8
  | .b => 1#8
  | .c => 2#8
  | .d => 3#8

/-- A port: 0 A, 1 B, 2 C1, 3 C2, 4 D (R181). -/
def portByte : Port → Byte
  | .a => 0#8
  | .b => 1#8
  | .c1 => 2#8
  | .c2 => 3#8
  | .d => 4#8

/-- A phantom state (R183). -/
def phantomCode : PhantomState → Nat
  | .off => 0
  | .rampUp => 1
  | .on => 2
  | .rampDown => 3
  | .faulted => 4

/-- An operation state (section 9.7). -/
def opByte : OpState → Byte
  | .idle => 0#8
  | .zcWait => 1#8
  | .lineWait => 2#8
  | .ackWait => 3#8
  | .settling => 4#8
  | .suspect => 5#8

/-- A crosspoint mode: 0 FOLLOW, 1 TRACK, 2 OWNER (section 9.7). -/
def modeByte : XpMode → Byte
  | .follow => 0#8
  | .track _ => 1#8
  | .owner => 2#8

/-- A crosspoint's reference, 0 if absent (section 9.7). -/
def refOf : XpMode → Int
  | .track r => r
  | .owner | .follow => 0

/-- Whether a reference is present. -/
def hasRef : XpMode → Bool
  | .track _ => true
  | .owner | .follow => false

/-- A lock state (R180). -/
def lockByte : LockState → Byte
  | .locked => 0#8
  | .acquiring => 1#8
  | .holdover => 2#8

/-- A reference of the clock (R180). -/
def refByte : ClockRef → Byte
  | .internal => 0#8
  | .c1 => 1#8
  | .c2 => 2#8
  | .external => 3#8
  | .nothing => 4#8

/-- A preferred source (R180). -/
def sourceByte : ClockSource → Byte
  | .internal => 0#8
  | .portC => 1#8
  | .external => 2#8

/-- A holdover form, 0xFF outside HOLDOVER (R180, R181). -/
def formByte (l : LockState) (f : HoldForm) : Byte :=
  match l with
  | .locked | .acquiring => 0xFF#8
  | .holdover =>
    match f with
    | .resume => 0#8
    | .rest => 1#8
    | .wait => 2#8

/-- A link state (R181). -/
def linkByte : LinkState → Byte
  | .off => 0#8
  | .seeking => 1#8
  | .up => 2#8
  | .degraded => 3#8
  | .down => 4#8

/-- The cause of a LINK event (R181). -/
def linkCauseByte : LinkCause → Byte
  | .enable => 0#8
  | .disable => 1#8
  | .validRun => 2#8
  | .errorWindow => 3#8
  | .cleanRun => 4#8
  | .lost => 5#8
  | .listen => 6#8

/-- The cause of a CLOCK event (R181). -/
def clockCauseByte : ClockCause → Byte
  | .select => 0#8
  | .locked => 1#8
  | .timeout => 2#8
  | .lostLock => 3#8
  | .unfit => 4#8
  | .resume => 5#8
  | .retry => 6#8
  | .found => 7#8

/-- The cause of a change of owner (R181). -/
def ownCauseByte : OwnCause → Byte
  | .claim => 0#8
  | .takeover => 1#8
  | .release => 2#8
  | .feedOff => 3#8
  | .scene => 4#8

/-- The cause of a LIMIT event (R181). -/
def limitCauseByte : LimitCause → Byte
  | .level => 0#8
  | .request => 1#8
  | .scene => 2#8

/-- The error of a PREAMP event (R181). -/
def lineErrorByte : LineError → Byte
  | .framing => 1#8
  | .check => 2#8
  | .timeout => 3#8

/-- A result code (R175). -/
def Result.code : Result → Byte
  | .ok => 0#8
  | .clamped => 1#8
  | .asTrim => 2#8
  | .owned => 3#8
  | .held => 4#8
  | .notOwner => 5#8
  | .isOwner => 6#8
  | .feedOff => 7#8
  | .faulted => 8#8
  | .busy => 9#8
  | .badKind => 10#8
  | .badChannel => 11#8
  | .badFeed => 12#8
  | .badSource => 13#8
  | .badPointer => 14#8
  | .badArg => 15#8

/-- A tag, 0 if there is none. -/
def tagOf (t : Option Half) : Half := t.getD 0#16

/-- The report kind of an event (R181). -/
def Event.kind : Event → Byte
  | .gainDone _ _ _ _ _ _ => 1#8
  | .gainCancelled _ _ _ _ _ => 2#8
  | .ownership _ _ _ _ _ => 3#8
  | .guard _ _ _ _ _ _ _ => 4#8
  | .guardFloor _ _ _ _ _ => 5#8
  | .limit _ _ _ _ _ _ _ => 6#8
  | .phantom _ _ _ _ => 7#8
  | .swapDone _ _ _ _ => 8#8
  | .mismatch _ _ _ _ _ _ _ => 9#8
  | .link _ _ _ _ _ _ _ => 10#8
  | .preamp _ _ => 11#8
  | .input _ _ => 12#8
  | .clock _ _ _ _ _ _ _ _ _ _ _ _ _ _ _ => 13#8

/-- The body of a PREAMP report (R181). -/
def preampBody (b : BoardId) : PreampCause → List Byte
  | .stepFailed c err failures => [0#8, u8 b.val, u8 c.val, lineErrorByte err, u8 failures]
  | .offline err => [1#8, u8 b.val, 0xFF#8, lineErrorByte err, 0#8]
  | .online => [2#8, u8 b.val, 0xFF#8, 0#8, 0#8]

/-- The body of an event's report, from offset 0x08 on (R181). -/
def Event.body : Event → List Byte
  | .gainDone c ack lapp tag forced superseded =>
    [u8 c.val, codeByte ack.analog, flagByte ack.padIn, flagByte tag.isSome] ++ s16 lapp ++ halfBytes (tagOf tag) ++
      u16 forced ++ u16 superseded
  | .gainCancelled c n ack ackPhantom lapp =>
    [u8 c.val, codeByte n.target.analog, flagByte n.target.padIn, flagByte n.tag.isSome] ++ halfBytes (tagOf n.tag) ++
      [codeByte ack.analog, flagByte ack.padIn] ++ s16 lapp ++ [flagByte ackPhantom, ownCauseByte n.cause] ++
      u16 n.superseded
  | .ownership c former new cause tag =>
    [u8 c.val, ownerByte former, ownerByte new, ownCauseByte cause] ++ halfBytes (tagOf tag)
  | .guard c overCount peak aApp before after rest =>
    [u8 c.val, u8 overCount] ++ u16 peak ++ [codeByte aApp, codeByte before, codeByte after, 0#8] ++ u16 rest
  | .guardFloor c overCount peak aApp floor => [u8 c.val, u8 overCount] ++ u16 peak ++ [codeByte aApp, u8 floor]
  | .limit c f on cause raw g lapp =>
    [u8 c.val, feedByte f, flagByte on, limitCauseByte cause] ++ s16 raw ++ s16 g ++ s16 lapp
  | .phantom c state fault ack =>
    [u8 c.val, u8 (phantomCode state), flagByte fault, codeByte ack.analog, flagByte ack.padIn]
  | .swapDone tag n swapped skipped =>
    halfBytes (tagOf tag) ++ [u8 n, 0#8, 0#8, 0#8, 0#8, 0#8] ++ maskBytes swapped ++ maskBytes skipped
  | .mismatch c cause expected found wasSuspect failedHeld equalsFailed =>
    [u8 c.val, flagByte (cause == .stepAnswer), codeByte expected.setting.analog, flagByte expected.setting.padIn,
     flagByte expected.phantom, codeByte found.setting.analog, flagByte found.setting.padIn, flagByte found.phantom,
     bitsByte wasSuspect failedHeld equalsFailed false false false false false]
  | .link p former new cause windowCount latest tag =>
    [portByte p, linkByte former, linkByte new, linkCauseByte cause, u8 windowCount,
     bitsByte latest.isSome tag.isSome false false false false false false,
     (latest.map LatestWord.id).getD 0#8, (latest.map LatestWord.third).getD 0#8] ++ halfBytes (tagOf tag)
  | .preamp b cause => preampBody b cause
  | .input lane fault => [u8 lane.val, flagByte fault]
  | .clock former new formerForm newForm formerRef newRef preferred cause inRun outRun acq c1 c2 extFit tag =>
    [lockByte former, formByte former formerForm, lockByte new, formByte new newForm, refByte formerRef, refByte newRef,
     sourceByte preferred, clockCauseByte cause, u8 inRun, u8 outRun] ++ u16 acq ++
      [linkByte c1, linkByte c2, flagByte extFit, flagByte tag.isSome] ++ halfBytes (tagOf tag)

/-- A report, header and body, padded to a whole report block (R181). -/
def reportBytes (kind : Byte) (unitId : Nat) (stamp : Word) (body : List Byte) : List Byte :=
  padTo Config.reportBlockSize ([kind, u8 unitId] ++ u16 (8 + body.length) ++ wordBytes stamp ++ body)

/-- The four flags of the feeds, feed A in the lowest bit. -/
def feedBits (v w : PerFeed Bool) : Byte := bitsByte v.a v.b v.c v.d w.a w.b w.c w.d

/-- A METER report's entry of a channel (R181). -/
def SnapEntry.bytes (e : SnapEntry) : List Byte :=
  u16 e.peak ++ [bitsByte e.clip e.fault e.guarded e.suspect false false false false, feedBits e.sat e.limited]

/-- The body of a METER report (R181). -/
def Snapshot.body (m : Snapshot) : List Byte := m.entries.toList.flatMap SnapEntry.bytes

/-- The body of a GAP report (R181, R188). -/
def gapBody (lost : Nat) (last : Option Word) : List Byte := u16 lost ++ [0#8, 0#8] ++ wordBytes (last.getD 0#32)

end Sys2Proof.Machine
end

