-- ==== Sys2Proof/Machine/Exchange.lean ====
section
/-! DEFINITION. The Exchange Unit (Chapters 9 and 10) but for the requests themselves: the status area, the registers, the
report store and its writer, the snapshots, the walk state, the exchange clear, and the outcome of a take. -/

namespace Sys2Proof.Machine

/-! ### The report store (R185) -/

/-- The number of report blocks that a BLOCKS code selects (section 9.2). -/
def blockCount (code : BitVec 2) : Nat := 16 * 2 ^ code.toNat

/-- The block count in force. -/
def Exchange.count (x : Exchange) : Nat := blockCount x.blocksCode

/-- The next block to be written (R185). -/
def Exchange.nextBlock (x : Exchange) : Nat := (x.oldest + x.filled) % x.count

/-- The offset of a report block (R181). -/
def blockOffset (i : Nat) : Nat := Config.windowEnd + Config.reportBlockSize * i

/-- A block is free and the exchange is enabled: the writer may write (R186). -/
def Exchange.mayWrite (x : Exchange) : Bool := x.enable && decide (x.filled < x.count)

/-- A report is written into the next block, and the filled count that covers it rises (R185, R186). -/
def Exchange.store (x : Exchange) (kind : Byte) (stamp : Word) (body : List Byte) : Exchange :=
  { x with
    mem := writeBytes x.mem (blockOffset x.nextBlock) (reportBytes kind x.unitId stamp body)
    filled := x.filled + 1 }

/-- The store is emptied (R185). -/
def Exchange.emptyStore (x : Exchange) : Exchange := { x with oldest := 0, filled := 0 }

/-- One report is written: the GAP, else the head event, else the held snapshot (R186, R188, R190). -/
def Exchange.writeNext (x : Exchange) : Exchange :=
  if x.mayWrite then
    if 0 < x.lost then
      { x.store 14#8 (x.firstLost.getD 0#32) (gapBody x.lost x.lastLost) with
        lost := 0, firstLost := none, lastLost := none }
    else match x.queue with
      | q :: rest => { x.store q.event.kind q.stamp q.event.body with queue := rest }
      | [] =>
        match x.held with
        | some m => { x.store 15#8 m.stamp m.body with held := none }
        | none => x
  else x

/-- A write of N to RELEASE gives back the oldest blocks (R189). -/
def Exchange.giveBack (x : Exchange) (n : Nat) : Exchange :=
  if n ≤ x.filled then { x with oldest := (x.oldest + n) % x.count, filled := x.filled - n }
  else
    { x with
      oldest := (x.oldest + x.filled) % x.count, filled := 0, sticky := { x.sticky with excess := true } }

/-! ### Snapshots (R190) -/

/-- One channel's entry of a held snapshot merged with the new one (R190). -/
def SnapEntry.merge (old new : SnapEntry) : SnapEntry :=
  { peak := max old.peak new.peak, clip := old.clip || new.clip, fault := old.fault || new.fault,
    guarded := old.guarded || new.guarded, suspect := old.suspect || new.suspect,
    sat := PerFeed.of fun f => old.sat.get f || new.sat.get f, limited := new.limited }

/-- A held snapshot merged with the new one (R190). -/
def Snapshot.merge (old new : Snapshot) : Snapshot :=
  { stamp := new.stamp, entries := tab fun c => (old.entries[c]).merge new.entries[c] }

/-- A snapshot is handed over: written at once when nothing waits before it, held otherwise (R190). -/
def Exchange.takeSnapshot (x : Exchange) (m : Snapshot) : Exchange :=
  match x.held with
  | some old => { x with held := some (old.merge m) }
  | none =>
    if x.lost = 0 ∧ x.queue = [] ∧ x.mayWrite = true then x.store 15#8 m.stamp m.body
    else { x with held := some m }

/-! ### Registers and the notice line (section 9.2, R191, R192) -/

/-- REPORTS in NOTICE (R191). -/
def Exchange.reports (x : Exchange) : Bool := decide (x.threshold < x.filled)

/-- The NOTICE register (section 9.2). -/
def Exchange.notice (x : Exchange) : BitVec 5 :=
  BitVec.ofBool x.sticky.lock ++ BitVec.ofBool x.sticky.excess ++ BitVec.ofBool x.sticky.chain ++
    BitVec.ofBool x.sticky.urgent ++ BitVec.ofBool x.reports

/-- The notice line (R192). -/
def Exchange.noticeLine (x : Exchange) : Bool := x.enable && (x.notice &&& x.mask != 0#5)

/-- A read of a register (R166, R167). Reads change nothing. -/
def Exchange.readReg (x : Exchange) : Reg → Word
  | .ident => 0x06400001#32
  | .control => (x.blocksCode ++ 0#1 ++ BitVec.ofBool x.enable).setWidth 32
  | .poke | .release => 0#32
  | .notice => x.notice.setWidth 32
  | .noticeMask => x.mask.setWidth 32

/-- A write to NOTICE clears each sticky bit that it holds as 1 (R166). -/
def Sticky.clearBits (n : Sticky) (v : Word) : Sticky :=
  { urgent := n.urgent && !v.getLsbD 1, chain := n.chain && !v.getLsbD 2, excess := n.excess && !v.getLsbD 3,
    lock := n.lock && !v.getLsbD 4 }

/-- The commands of one write to CONTROL, in the order of its actions (R167). -/
def controlWrite (v : Word) : List Instr := [.blocks (v.extractLsb' 2 2), .enable (v.getLsbD 0), .clear (v.getLsbD 1)]

/-! ### The status area (R165, R180) -/

/-- The bytes of the status area: a view of the fields it shows, which the part keeps up to date (R165). -/
def State.statusBytes (s : State) : List Byte :=
  padTo 64 (halfBytes Config.partCode ++ [Config.revision, 0#8] ++ wordBytes (BitVec.ofNat 32 s.ex.cursor) ++
    u16 s.ex.filled ++ u16 s.ex.oldest ++ u16 s.ex.lost ++ [lockByte s.clock.lock, refByte s.clock.ref] ++
    wordBytes s.ex.frameSnapshot)

/-- What a read of one byte of the exchange memory gives. -/
def State.readMem (s : State) (a : Nat) : Byte :=
  if a < Config.anchor then s.statusBytes.getD a 0#8 else readByte s.ex.mem a

/-! ### The walk (R168 to R170) and the exchange clear (R179) -/

/-- A walk trigger (R169). -/
def Exchange.trigger (x : Exchange) : Exchange := if x.walking then { x with again := true } else { x with walking := true }

/-- A walk stops: a new one starts at once if the walk-again flag is on and ENABLE is 1 (R169). -/
def Exchange.stopWalk (x : Exchange) : Exchange :=
  if x.again && x.enable then { x with again := false } else { x with walking := false }

/-- The exchange clear (R179). -/
def Exchange.cleared (x : Exchange) : Exchange :=
  { x with
    cursor := Config.anchor, walking := false, inHand := none, again := false, pollCountdown := x.pollInterval
    clearAsked := false, oldest := 0, filled := 0, queue := [], lost := 0, firstLost := none, lastLost := none
    held := none, sticky := resetSticky }

/-- An exchange clear is asked for: made at once, or when the record in hand is complete (R179). -/
def Exchange.askClear (x : Exchange) : Exchange :=
  if x.inHand.isSome then { x with clearAsked := true } else x.cleared

/-- The poll countdown has expired and its trigger is still to be raised (R178). -/
def Exchange.pollDue (x : Exchange) : Bool := x.enable && decide (0 < x.pollInterval) && x.pollCountdown == 0

/-- The expiry of the poll countdown (R178). -/
def Exchange.pollExpires (x : Exchange) : Exchange :=
  if x.pollDue then { x with pollCountdown := x.pollInterval }.trigger else x

/-- A change of ENABLE, or a write of the value in force (R167). A poll countdown that the boundary has run out raises its
trigger before ENABLE goes to 0 (R178; log entry 24). -/
def Exchange.setEnable (x : Exchange) (on : Bool) : Exchange :=
  if on = x.enable then x
  else if on then { x with enable := true, pollCountdown := x.pollInterval }.trigger
  else { x.pollExpires with enable := false, again := false }

/-- The BLOCKS field of a write to CONTROL (R167). -/
def Exchange.setBlocks (x : Exchange) (code : BitVec 2) : Exchange :=
  if x.enable ∨ code = x.blocksCode then x else { x with blocksCode := code }.emptyStore

/-- The countdowns of a block boundary, and the frame counter snapshot (R178). -/
def Exchange.boundary (x : Exchange) (frame : Word) : Exchange :=
  { x with
    frameSnapshot := frame
    pollCountdown := if x.enable && decide (0 < x.pollInterval) then x.pollCountdown - 1 else x.pollCountdown
    meterCountdown := x.meterCountdown - 1 }

/-- A write of a whole word to a register: each bit that the table names acts by its rule, and the others have no effect
(R166, R167, R169, R189). -/
def Exchange.writeReg (x : Exchange) (reg : Reg) (v : Word) : Exchange :=
  match reg with
  | .ident => x
  | .control =>
    let y := (x.setBlocks (v.extractLsb' 2 2)).setEnable (v.getLsbD 0)
    if v.getLsbD 1 then y.askClear else y
  | .poke => if x.enable then x.trigger else x
  | .release => x.giveBack (v.toNat % 256)
  | .notice => { x with sticky := x.sticky.clearBits v }
  | .noticeMask => { x with mask := v.setWidth 5 }

/-! ### The outcome of a take (R171) -/

/-- The outcome written into a record: the reply, where the rule writes one, and then the header word (R171). -/
def Exchange.writeOutcome (x : Exchange) (t : TakeHead) (r : Result) (reply : Option (List Byte)) : Exchange :=
  let m := match reply with
    | some bs => writeBytes x.mem (t.off + 0x20) (padTo 32 bs)
    | none => x.mem
  { x with mem := writeBytes m t.off [2#8, t.kind, t.source, r.code] }

/-- A take is complete: the cursor moves to the record, the walk stops if ENABLE is 0, and an exchange clear that waited
is made (R170 steps 5 and 6, R179). -/
def Exchange.complete (x : Exchange) (t : TakeHead) : Exchange :=
  let y := { x with cursor := t.off, inHand := none }
  let z := if y.enable then y else { y with walking := false, again := false }
  if z.clearAsked then z.cleared else z

/-- A record's outcome is written and its take completed. -/
def Exchange.finish (x : Exchange) (t : TakeHead) (r : Result) (reply : Option (List Byte)) : Exchange :=
  (x.writeOutcome t r reply).complete t

/-- A take ends at once with a result and, where the rule writes one, a reply (R171). -/
def State.finish (s : State) (t : TakeHead) (r : Result) (reply : Option (List Byte)) : State :=
  s.setEx (s.ex.finish t r reply)

/-- The record stays in hand until its first new sample has been computed (R58, R171). -/
def State.hold (s : State) (t : TakeHead) (r : Result) (reply : XpReply) : State :=
  s.setEx { s.ex with inHand := some { head := t, result := r, reply := reply, ready := none } }

/-- The reply of the record in hand is written once its first new sample has been computed (R58). -/
def Exchange.writeReply (x : Exchange) : Exchange :=
  match x.inHand with
  | none => x
  | some h =>
    match h.ready with
    | none => x
    | some (r, bs) => x.finish h.head r (some bs)

end Sys2Proof.Machine
end

