-- ==== Sys2Proof/Machine/Meter.lean ====
section
/-! DEFINITION. The Meter and Guard Unit (Chapter 5). -/

namespace Sys2Proof.Machine

/-- The block record after one sample period (R97). -/
def BlockRecord.sample (r : BlockRecord) (x : Int) (laneFault suspect : Bool) : BlockRecord :=
  { peak := max r.peak x.natAbs, clip := r.clip || x == maxSample || x == minSample, fault := r.fault || laneFault,
    suspect := r.suspect || suspect }

/-- The peak code of a completed block (R98). -/
def BlockRecord.code (r : BlockRecord) : Nat := r.peak / 256

/-- A completed block merged into the interval record (R100). -/
def IntervalRecord.merge (i : IntervalRecord) (r : BlockRecord) : IntervalRecord :=
  { i with peak := max i.peak r.code, clip := i.clip || r.clip, fault := i.fault || r.fault,
           suspect := i.suspect || r.suspect }

/-- The guard's counters at a boundary: the rest counter, then the over-count by the block's peak code (R107). -/
def Guard.count (g : Guard) (code : Nat) : Guard :=
  if g.threshold ≤ code then { g with restLeft := g.restLeft - 1, overCount := min 32 (g.overCount + 1) }
  else { g with restLeft := g.restLeft - 1, overCount := 0, floorReported := false }

/-- The guard acts, its counters being those of the boundary (R107). -/
def Guard.acts (g : Guard) : Bool := decide (g.hold ≤ g.overCount) && g.restLeft == 0

/-- The guard takes one preamp step off the channel; the GUARD event follows what the Gain Tracker's rule for the target
hands over (R108). -/
def State.guardStep (s : State) (c : ChanId) (code : Nat) : State :=
  let ch := s.chan c
  let g := s.guard c
  let t : Setting := { ch.tgt with analog := min ch.tgt.analog (ch.app.analog - 6) }
  let r := ch.guardTarget c t
  let s1 := s.putChan c (r.1, r.2 ++ [.guard c g.overCount code ch.app.analog ch.tgt.analog t.analog g.rest])
  { s1.setGuard c { g with restLeft := g.rest, overCount := 0 } with
    intervals := upd s1.intervals c { s1.intervals[c] with guarded := true } }

/-- The guard would act below its floor (R109). -/
def State.guardFloor (s : State) (c : ChanId) (code : Nat) : State :=
  let g := s.guard c
  if g.floorReported then s
  else (s.setGuard c { g with floorReported := true }).raise
    (.guardFloor c g.overCount code (s.chan c).app.analog g.floor)

/-- One channel's guard at a block boundary (R107 to R109). -/
def State.guardChan (s : State) (c : ChanId) (code : Nat) : State :=
  if (s.guard c).enable && !(s.chan c).startup then
    let s1 := s.setGuard c ((s.guard c).count code)
    if (s1.guard c).acts then
      if ((s1.guard c).floor : Int) ≤ (s1.chan c).app.analog - 6 then s1.guardStep c code else s1.guardFloor c code
    else s1
  else s

/-- One channel at a block boundary: the completed block goes to the guard and into the interval record, and the block
record is cleared (R98). -/
def State.meterChan (s : State) (c : ChanId) : State :=
  let r := s.blocks[c]
  let s1 := s.guardChan c r.code
  { s1 with intervals := upd s1.intervals c (s1.intervals[c].merge r), blocks := upd s1.blocks c resetBlock }

/-- The Meter and Guard Unit's work at a block boundary, channel by channel (R98, R111). -/
def State.meterBoundary (s : State) : State := (indices 64).foldl State.meterChan s

/-- One channel's entry of the snapshot of a close (R101, R102). -/
def State.snapEntry (s : State) (c : ChanId) : SnapEntry :=
  let i := s.intervals[c]
  { peak := i.peak, clip := i.clip, fault := i.fault, guarded := i.guarded, suspect := i.suspect,
    sat := PerFeed.of fun f => (s.xp c f).satSeen, limited := PerFeed.of fun f => (s.xp c f).limited }

/-- The snapshot of a close (R102). -/
def State.snapshot (s : State) : Snapshot := { stamp := s.frame, entries := tab fun c => s.snapEntry c }

/-- The meter countdown has expired and its close is still to be made (R178). -/
def State.closeDue (s : State) : Bool := s.ex.meterCountdown == 0

/-- The close of a meter interval: the snapshot is built and handed over, the interval records and the sat_seen flags are
cleared, and the countdown is reloaded (R101, R103, R178). -/
def State.closeInterval (s : State) : State :=
  if s.closeDue then
    { s with
      intervals := tab fun _ => resetInterval
      xps := tab fun c => PerFeed.of fun f => { s.xp c f with satSeen := false }
      ex := { s.ex with meterCountdown := s.ex.meterInterval }.takeSnapshot s.snapshot }
  else s

/-- The Exchange Unit's work at a boundary brought to its end: a meter interval that has run out is closed, and a poll
countdown that has run out raises its trigger (R178). -/
def State.exchangeSettled (s : State) : State := s.closeInterval.setEx s.closeInterval.ex.pollExpires

end Sys2Proof.Machine
end

