-- ==== Sys2Proof/Machine/Ports.lean ====
section
/-! DEFINITION. The Feed Ports (Chapter 7): return words, verdicts, link states, and the frames. -/

namespace Sys2Proof.Machine

/-! ### Return words (R139 to R141) -/

/-- The check byte of a return word is correct (R139). -/
def wordChecks (w : ReturnWord) : Bool := w.check == w.id + w.seq + w.third + 0x5A#8

/-- The verdicts of a block (R140). -/
inductive Verdict where
  | missing | check | slip | good
deriving DecidableEq, Repr

/-- The verdict of the ended block (R140). -/
def PortRec.verdict (p : PortRec) : Verdict :=
  match p.word with
  | none => .missing
  | some w =>
    if wordChecks w = false then .check
    else match p.lastSeq with
      | none => .good
      | some q => if w.seq = q + 1#8 then .good else .slip

/-- The verdict has a valid word (R140). -/
def Verdict.valid : Verdict → Bool
  | .slip | .good => true
  | .missing | .check => false

/-- The verdict makes an error block (R140). -/
def Verdict.error : Verdict → Bool
  | .good => false
  | .missing | .check | .slip => true

/-- The window count: the error blocks of the error window (R131, R142). -/
def PortRec.windowCount (p : PortRec) : Nat := p.window.countP id

/-- The listening flag of a latest word (R139, R183). -/
def LatestWord.listening (w : LatestWord) : Bool := w.third.getLsbD 7

/-- A valid word is recorded (R141). -/
def PortRec.recordWord (p : PortRec) (v : Verdict) : PortRec :=
  match p.word with
  | none => p
  | some w => if v.valid then { p with lastSeq := some w.seq, latest := some { id := w.id, third := w.third } } else p

/-- The runs, the error window and the clean run after a verdict (R142). -/
def PortRec.updateCounts (p : PortRec) (v : Verdict) : PortRec :=
  let w := p.window ++ [v.error]
  { p with
    validRun := if v.valid then min 16 (p.validRun + 1) else 0
    invalidRun := if v.valid then 0 else min 8 (p.invalidRun + 1)
    window := if 64 < w.length then w.drop 1 else w
    cleanRun := if p.state = .degraded ∧ v = .good then min 64 (p.cleanRun + 1) else 0 }

/-- The transition that the updated counts cause, with its cause (R143 to R146). -/
def PortRec.transition (p : PortRec) : PortRec × Option LinkCause :=
  match p.state with
  | .off => (p, none)
  | .seeking | .down =>
    if 16 ≤ p.validRun then
      ({ p with state := .up, validRun := 0, invalidRun := 0, cleanRun := 0, window := [] }, some .validRun)
    else (p, none)
  | .up => if 4 ≤ p.windowCount then ({ p with state := .degraded, cleanRun := 0 }, some .errorWindow) else (p, none)
  | .degraded =>
    if 8 ≤ p.invalidRun then ({ p with state := .down, validRun := 0, cleanRun := 0 }, some .lost)
    else if 64 ≤ p.cleanRun then ({ p with state := .up, cleanRun := 0 }, some .cleanRun)
    else (p, none)

/-- The listening flag of a valid word differs from that of the former latest word, while the port is UP or DEGRADED
(R147). -/
def listenChanged (former new : PortRec) (v : Verdict) : Bool :=
  (former.state == .up || former.state == .degraded) && v.valid &&
    match former.latest, new.latest with
    | some a, some b => a.listening != b.listening
    | _, _ => false

/-- A port's LINK event of a verdict (R147, R148). -/
def verdictEvent (p : Port) (former counted new : PortRec) (v : Verdict) (cause : Option LinkCause) : List Event :=
  match cause with
  | some k => [.link p former.state new.state k counted.windowCount new.latest none]
  | none =>
    if listenChanged former new v then [.link p former.state new.state .listen counted.windowCount new.latest none]
    else []

/-- A judging port's verdict at a block boundary, with its event (R140 to R147). -/
def PortRec.judge (port : Port) (p : PortRec) : PortRec × List Event :=
  let v := p.verdict
  let counted := (p.recordWord v).updateCounts v
  let t := counted.transition
  ({ t.1 with word := none }, verdictEvent port p counted t.1 v t.2)

/-- A port at a block boundary: nothing while OFF, the start of judging at the first boundary after the enable, a verdict
from then on (R137, R140). -/
def PortRec.boundary (port : Port) (p : PortRec) : PortRec × List Event :=
  if p.state = .off then (p, [])
  else if p.judging then p.judge port
  else ({ p with judging := true, word := none }, [])

/-- One port's boundary work. -/
def State.portBoundary (s : State) (p : Port) : State :=
  (s.setPort p ((s.port p).boundary p).1).raiseAll ((s.port p).boundary p).2

/-- The Feed Ports' work at a block boundary, in port order (R149). That the five ports work at once, with no other block's
work and no other block's event between two of them, is the model's choice: the manual gives each port an order of its own
against the Clock Unit's reading (R149; log entry 38). -/
def State.portsBoundary (s : State) : State := allPorts.foldl State.portBoundary s

/-- A return word arrives: discarded while the port is OFF or not judging; otherwise the first of its block is kept
(R137, R138, R140). Any word a running port receives shows the Clock Unit that the return path gives timing (R155). -/
def PortRec.arrive (p : PortRec) (w : ReturnWord) : PortRec :=
  if p.state = .off then p
  else
    { p with
      timing := true
      word := if p.judging then
          match p.word with
          | none => some w
          | some first => some first
        else p.word }

/-! ### Enable and disable (R137, R138) -/

/-- A port leaves OFF for SEEKING (R137). -/
def State.portEnable (tag : Half) (s : State) (p : Port) : State :=
  (s.setPort p { resetPort with state := .seeking }).raise (.link p (s.port p).state .seeking .enable 0 none (some tag))

/-- A port goes to OFF and forgets its record; one that was not OFF hands its LINK event over (R138). -/
def State.portDisable (tag : Half) (s : State) (p : Port) : State :=
  let former := s.port p
  let s1 := s.setPort p resetPort
  if former.state = .off then s1
  else s1.raise (.link p former.state .off .disable former.windowCount former.latest (some tag))

/-! ### Frames (R132 to R136) -/

/-- The slot status and the owner field of the control word (R135, R183). -/
def State.slotStatus (s : State) : Option ChanId → BitVec 22
  | none => 7#3 ++ 0#19
  | some c =>
    let ch := s.chan c
    (ownerByte ch.owner).setWidth 3 ++ BitVec.ofNat 6 c.val ++ BitVec.ofInt 6 (ch.app.analog / 6) ++
      BitVec.ofBool ch.app.padIn ++ BitVec.ofNat 3 (phantomCode ch.phantom) ++
      BitVec.ofBool s.lanes[boardOf c].fault ++ BitVec.ofBool (ch.op == .suspect) ++ BitVec.ofBool ch.startup

/-- The slot index of the frame of the running sample (R134). -/
def State.slotIndex (s : State) : SlotId := ⟨s.frame.toNat % 64, Nat.mod_lt _ (by omega)⟩

/-- The control word of a feed's frame of the running sample (R134, R183). -/
def State.controlWord (s : State) (f : Feed) : Word :=
  BitVec.ofNat 3 s.ex.unitId ++ BitVec.ofBool (s.frame.toNat % Config.blockPeriods == 0) ++
    BitVec.ofNat 6 s.slotIndex.val ++ s.slotStatus (s.slots.get f)[s.slotIndex]

/-- A feed's slot sample: the output of the mapped channel, or 0 for an empty slot (R19, R133). -/
def State.slotSample (s : State) (f : Feed) (i : SlotId) : Int :=
  match (s.slots.get f)[i] with
  | none => 0
  | some c => (s.outputs[c]).get f

/-- The frame of the running sample of a feed (R132, R136). -/
def State.buildFrame (s : State) (f : Feed) : Frame :=
  { slots := tab fun i => s.slotSample f i, control := s.controlWord f }

/-- The frames of the running sample, which begin with the next period: each port that is not OFF sends its feed's (R132,
R136, R138). -/
def State.sendFrames (s : State) : State :=
  { s with
    portOut := PerPort.of fun p => if (s.port p).state = .off then none else some (s.buildFrame (portFeed p)) }

end Sys2Proof.Machine
end

