-- ==== Sys2Proof/Machine/Clock.lean ====
section
/-! DEFINITION. The Clock Unit (Chapter 8). -/

namespace Sys2Proof.Machine

/-- A link state in which a C port is fit as a reference (R154). -/
def LinkState.fit : LinkState → Bool
  | .up | .degraded => true
  | .off | .seeking | .down => false

/-- Whether a reference is fit, C1, C2 and EXTERNAL being as judged (R154). -/
def ClockRef.fit (r : ClockRef) (c1 c2 ext : Bool) : Bool :=
  match r with
  | .internal => true
  | .c1 => c1
  | .c2 => c2
  | .external => ext
  | .nothing => false

/-- The selection for PORT_C: C1 if fit, otherwise C2 if fit, otherwise none (R154). -/
def selectC (c1 c2 : Bool) : ClockRef := if c1 then .c1 else if c2 then .c2 else .nothing

/-- The reference chosen for a source (R154, R161). -/
def chooseRef (src : ClockSource) (c1 c2 ext : Bool) : ClockRef :=
  match src with
  | .internal => .internal
  | .portC => selectC c1 c2
  | .external => if ext then .external else .nothing

/-- The partner of a C port that an unfit reference fails over to, if it is fit (R158). -/
def failover (r : ClockRef) (c1 c2 : Bool) : ClockRef :=
  match r with
  | .c1 => if c2 then .c2 else .nothing
  | .c2 => if c1 then .c1 else .nothing
  | .internal | .external | .nothing => .nothing

/-- A new reference, lock state and form, with the runs, the acquisition count and the retry countdown at 0. -/
def Clock.move (k : Clock) (ref : ClockRef) (lock : LockState) (form : HoldForm) (armed : Bool) : Clock :=
  { k with ref := ref, lock := lock, form := form, inRun := 0, outRun := 0, acq := 0, retry := 0, armed := armed }

/-- The CLOCK event of a change, with the counts of the record before it (R162). Where no verdict caused the change, as for
SELECT, UNFIT, RESUME, RETRY and FOUND, R162 does not say which counts the event carries: that it carries those the record
held just before the change is the model's choice (log entry 41). -/
def clockEvent (former new : Clock) (cause : ClockCause) (c1 c2 : LinkState) (tag : Option Half) : Event :=
  .clock former.lock new.lock former.form new.form former.ref new.ref new.preferred cause former.inRun former.outRun
    former.acq c1 c2 new.extFit tag

/-- What a boundary, or a later step of the same boundary, makes of the clock record: the counts with which the change was
made, the record after it, the cause if there is one, and whether LOCK is set (R156 to R162). -/
structure ClockMove where
  counted : Clock
  after : Clock
  cause : Option ClockCause
  lost : Bool
deriving DecidableEq, Repr

/-- A boundary that changes nothing but counts. -/
def Clock.stay (k : Clock) : ClockMove := { counted := k, after := k, cause := none, lost := false }

/-- The reference was read as unfit (R158). -/
def Clock.leaveUnfit (k : Clock) (c1 c2 : Bool) : ClockMove :=
  let r := failover k.ref c1 c2
  { counted := k
    after := k.move r (if r = .nothing then .holdover else .acquiring) .wait true
    cause := some .unfit
    lost := k.lock == .locked }

/-- A judged block in ACQUIRING (R156); giving up after 500 blocks is ACQUISITION_TIMEOUT. -/
def Clock.acquire (k : Clock) (inside : Bool) (rate : Nat) : ClockMove :=
  let counted := { k with acq := k.acq + 1, inRun := if inside then min 64 (k.inRun + 1) else 0 }
  if 64 ≤ counted.inRun then
    { counted := counted
      after := { counted with lock := .locked, heldRate := rate, inRun := 0, outRun := 0, acq := 0 }
      cause := some .locked, lost := false }
  else counted.stay

/-- A judged block in LOCKED on an outside reference (R157). -/
def Clock.keepLock (k : Clock) (inside : Bool) (rate : Nat) : ClockMove :=
  if inside then { k with outRun := 0, heldRate := rate }.stay
  else
    let counted := { k with outRun := k.outRun + 1 }
    if 4 ≤ counted.outRun then
      { counted := counted
        after := { counted with lock := .holdover, form := .resume, outRun := 0 }
        cause := some .lostLock, lost := true }
    else counted.stay

/-- A reference found, kept or tried again: ACQUIRING on it, the block that begins at this boundary being judged first
(R155, R159, R160). -/
def Clock.beginAcquiring (k : Clock) (r : ClockRef) (cause : ClockCause) : ClockMove :=
  { counted := k, after := k.move r .acquiring k.form true, cause := some cause, lost := false }

/-- The Clock Unit's work at a boundary once its reference has been read as fit or as none (R155 to R160). -/
def Clock.judge (k : Clock) (c1 c2 inside : Bool) (rate : Nat) : ClockMove :=
  match k.lock with
  | .locked =>
    if k.ref = .internal then { k with heldRate := Config.nominalRate }.stay
    else if k.armed then k.keepLock inside rate else { k with armed := true }.stay
  | .acquiring => if k.armed then k.acquire inside rate else { k with armed := true }.stay
  | .holdover =>
    match k.form with
    | .resume => k.beginAcquiring k.ref .resume
    | .rest => { k with retry := k.retry - 1 }.stay
    | .wait =>
      let r := chooseRef k.preferred c1 c2 k.extFit
      if r = .nothing ∨ r = .internal then k.stay else k.beginAcquiring r .found

/-- The reference gave timing during the ended block (R155): a C port that received a word, or a word clock with an
edge. -/
def State.refTiming (s : State) : Bool :=
  match s.clock.ref with
  | .c1 => s.ports.c1.timing
  | .c2 => s.ports.c2.timing
  | .external => s.clock.edge
  | .internal | .nothing => true

/-- A change of the clock record is put in force: its event is handed over with the link states of C1 and C2 as the record
says they were read, and the sticky LOCK notice is set if lock was lost (R157, R158, R162). -/
def State.putClock (s : State) (m : ClockMove) (tag : Option Half) : State :=
  let s1 := { s with clock := m.after, ex := { s.ex with sticky := { s.ex.sticky with lock := s.ex.sticky.lock || m.lost } } }
  match m.cause with
  | none => s1
  | some k => s1.raise (clockEvent m.counted m.after k m.after.c1 m.after.c2 tag)

/-- The Clock Unit's work at a block boundary (R154 to R160). -/
def State.clockBoundary (s : State) (phase : PhaseInput) : State :=
  let c1 := s.ports.c1.state.fit
  let c2 := s.ports.c2.state.fit
  let k : Clock :=
    { s.clock with extFit := s.clock.edge, edge := false, c1 := s.ports.c1.state, c2 := s.ports.c2.state }
  let inside := phase.inside && s.refTiming
  let m := if k.ref ≠ .nothing ∧ k.ref.fit c1 c2 k.extFit = false then k.leaveUnfit c1 c2 else k.judge c1 c2 inside phase.rate
  let s1 := s.putClock m none
  { s1 with ports := { s1.ports with c1 := { s1.ports.c1 with timing := false }, c2 := { s1.ports.c2 with timing := false } } }

/-- The acquisition count has reached 500 without lock (R156 step 4). -/
def Clock.timeoutDue (k : Clock) : Bool := k.lock == .acquiring && decide (500 ≤ k.acq)

/-- Acquisition gives up (R156 step 4). -/
def State.acquisitionGivesUp (s : State) : State :=
  if s.clock.timeoutDue then
    s.putClock { counted := s.clock
                 after := { s.clock with lock := .holdover, form := .rest, retry := 1000, inRun := 0, acq := 0 }
                 cause := some .timeout, lost := false } none
  else s

/-- The retry countdown of a REST holdover has reached 0 (R160). -/
def Clock.retryDue (k : Clock) : Bool := k.lock == .holdover && k.form == .rest && k.retry == 0

/-- The retry of a REST holdover (R160). -/
def State.clockRetries (s : State) : State :=
  if s.clock.retryDue then s.putClock (s.clock.beginAcquiring s.clock.ref .retry) none else s

/-- The Clock Unit's work at a boundary brought to its end: acquisition that has run out gives up, and a retry that is due is
made (R156, R160). -/
def State.clockSettled (s : State) : State := s.acquisitionGivesUp.clockRetries

/-- An edge arrives at the word clock input (R154). -/
def Clock.edgeArrives (k : Clock) : Clock := { k with edge := true }

/-- The lock state that SET_CLOCK chooses for a reference (R161). -/
def Clock.chosenLock (k : Clock) (r : ClockRef) : LockState :=
  if r = .internal then .locked
  else if r = .nothing then .holdover
  else if r = k.ref ∧ k.lock = .locked then .locked
  else .acquiring

/-- SET_CLOCK at its take (R161): the preferred source is stored, and a reference and lock state that differ from the
present ones are taken, with a CLOCK event. -/
def State.selectClock (s : State) (src : ClockSource) (tag : Half) : State :=
  let k : Clock := { s.clock with preferred := src }
  let r := chooseRef src s.ports.c1.state.fit s.ports.c2.state.fit k.extFit
  let l := k.chosenLock r
  if r = k.ref ∧ l = k.lock then { s with clock := k }
  else
    let a : Clock := { k.move r l .wait false with c1 := s.ports.c1.state, c2 := s.ports.c2.state }
    s.putClock { counted := k
                 after := if r = .internal then { a with heldRate := Config.nominalRate } else a
                 cause := some .select, lost := false } (some tag)

end Sys2Proof.Machine
end

