-- ==== Sys2Proof/Machine/Scenes.lean ====
section
/-! DEFINITION. The Scene Store (Chapter 6): scene entries, the capture of active settings and the swap. -/

namespace Sys2Proof.Machine

/-- A scene entry as LOAD_SHADOW reads it (R116, R182): the record, whether a value was brought into range, and whether a
value is outside the set its layout assigns. -/
structure SceneEntry where
  record : SceneRecord
  clamped : Bool
  invalid : Bool
deriving DecidableEq, Repr

/-- The owner an entry names; a value above 4 is invalid (R182). -/
def entryOwner (v : Byte) : Option Feed :=
  match v.toNat with
  | 1 => some .a
  | 2 => some .b
  | 3 => some .c
  | 4 => some .d
  | _ => none

/-- A feed's place in the order A to D. -/
def feedIndex : Feed → Nat
  | .a => 0
  | .b => 1
  | .c => 2
  | .d => 3

/-- A feed's mode pair in an entry (R182). -/
def modePair (v : Byte) (f : Feed) : Nat := v.toNat / 4 ^ feedIndex f % 4

/-- The 16 bytes at an offset read as a scene entry (R116, R182). -/
def readEntry (m : List Host.Cell) (a : Nat) : SceneEntry :=
  let code := (readByte m a).toNat
  let pad := readByte m (a + 1)
  let owner := readByte m (a + 2)
  let modes := readByte m (a + 3)
  let flags := readByte m (a + 12)
  let trim := fun f => (readHalf m (a + 4 + 2 * feedIndex f)).toInt
  { record :=
      { target := { analog := (roundCode code : Nat), padIn := pad == 1#8 }
        owner := entryOwner owner
        feeds := PerFeed.of fun f =>
          { track := modePair modes f == 1, trim := clampGain (trim f), mute := flags.getLsbD (feedIndex f),
            invert := flags.getLsbD (4 + feedIndex f) } }
    clamped := roundCode code != code || allFeeds.any fun f => clampGain (trim f) != trim f
    invalid := decide (1 < pad.toNat) || decide (4 < owner.toNat) || allFeeds.any fun f => decide (1 < modePair modes f) }

/-- The active settings of a channel captured into a scene record (R125). A fold that no sample has used yet is captured as it
stands: its trim was folded at the applied level then in force, and an application of the same period that is made after the
swap does not fold the captured trim again. R52 names the applied level of a first new sample, which after the swap never
comes, so this is the model's choice (log entry 7). -/
def State.capture (s : State) (c : ChanId) : SceneRecord :=
  { target := (s.chan c).tgt
    owner := (s.chan c).owner
    feeds := PerFeed.of fun f =>
      let x := s.xp c f
      { track := hasRef x.mode && decide ((s.chan c).owner ≠ some f), trim := x.trim, mute := x.mute, invert := x.invert } }

/-- The owner that a record installs: the feed it names if that feed is enabled, otherwise none (R123). -/
def State.sceneOwner (s : State) (r : SceneRecord) : Option Feed :=
  match r.owner with
  | some f => if s.feedOn.get f then some f else none
  | none => none

/-- A crosspoint after the swap of its channel: the scene's record, and SCENE as the cause of whatever differs at the swap's
first sample (R123, R124). -/
def Xp.install (x : Xp) (r : SceneRecord) (owner : Option Feed) (f : Feed) : Xp :=
  let e := r.feeds.get f
  { x with
    mode := if owner = some f then .owner else if e.track then .track r.target.level else .follow
    trim := e.trim, mute := e.mute, invert := e.invert, continuity := .settled, cause := .scene }

/-- A channel of the pending mask is swapped when its loaded flag is on, and skipped otherwise (R121). -/
def State.swapped (s : State) (c : ChanId) : Bool := inMask s.scenes.mask c && inMask s.scenes.loaded c

/-- The Gain Tracker's answer to a swapped channel's new target (R122). -/
def State.swapTarget (s : State) (c : ChanId) : Chan × List Event :=
  (s.chan c).requestTarget c s.scenes.tag s.scenes.shadow[c].target

/-- The OWNERSHIP event of a swapped channel (R123). -/
def State.swapOwnership (s : State) (c : ChanId) : List Event :=
  let o := s.sceneOwner s.scenes.shadow[c]
  if o = (s.chan c).owner then [] else [.ownership c (s.chan c).owner o .scene s.scenes.tag]

/-- The swapped channels in ascending order. -/
def State.swappedList (s : State) : List ChanId := (indices 64).filter fun c => s.swapped c

/-- The SWAP_DONE event (R126). -/
def State.swapDone (s : State) : Event :=
  .swapDone s.scenes.tag (s.swappedList.flatMap fun c => s.swapOwnership c).length (s.scenes.mask &&& s.scenes.loaded)
    (s.scenes.mask &&& ~~~s.scenes.loaded)

/-- The exchange of the banks for every swapped channel, and the empty pending mask (R121 to R125). -/
def State.exchangeBanks (s : State) : State :=
  { s with
    chans := tab fun c =>
      if s.swapped c then { (s.swapTarget c).1 with owner := s.sceneOwner s.scenes.shadow[c] } else s.chans[c]
    xps := tab fun c =>
      if s.swapped c then
        PerFeed.of fun f => (s.xp c f).install s.scenes.shadow[c] (s.sceneOwner s.scenes.shadow[c]) f
      else s.xps[c]
    scenes :=
      { s.scenes with
        shadow := tab fun c => if s.swapped c then s.capture c else s.scenes.shadow[c]
        mask := 0#64, tag := none } }

/-- The Scene Store's work at a block boundary: nothing with an empty pending mask, the swap and its events otherwise
(R120, R121, R126). -/
def State.sceneBoundary (s : State) : State :=
  if s.scenes.mask = 0#64 then s
  else s.exchangeBanks.raiseAll
    (s.swapDone :: (s.swappedList.flatMap fun c => s.swapOwnership c) ++ s.swappedList.flatMap fun c => (s.swapTarget c).2)

end Sys2Proof.Machine
end

