-- ==== Sys2Proof/Machine/Ownership.lean ====
section
/-! DEFINITION. Changes of owner by a request (sections 3.3 to 3.5) and the settings of a feed. -/

namespace Sys2Proof.Machine

/-- A change of owner: the OWNERSHIP event, and then what it does to an open operation (R56, R81, R82). -/
def State.changeOwner (s : State) (c : ChanId) (new : Option Feed) (cause : OwnCause) (tag : Half) : State :=
  let former := (s.chan c).owner
  let s1 := (s.setChan c { s.chan c with owner := new }).raise (.ownership c former new cause (some tag))
  s1.putChan c ((s1.chan c).cancel c cause)

/-- The crosspoint (c, f) enters TRACK at the applied level (R51). -/
def State.enterTrack (s : State) (c : ChanId) (f : Feed) : State :=
  s.setXp c f ((s.xp c f).enterTrack (s.chan c).level)

/-- The crosspoint (c, f) takes a mode outside TRACK (R52). -/
def State.leaveTrack (s : State) (c : ChanId) (f : Feed) (mode : XpMode) : State :=
  s.setXp c f ((s.xp c f).leaveTrack mode (s.chan c).level)

/-- Feed f becomes the owner of a channel that no feed owns (R60). -/
def State.claimFree (s : State) (c : ChanId) (f : Feed) (tag : Half) : State :=
  (s.leaveTrack c f .owner).changeOwner c (some f) .claim tag

/-- The senior feed f takes a channel over from its owner (R61). -/
def State.takeOver (s : State) (c : ChanId) (former f : Feed) (tag : Half) : State :=
  ((s.enterTrack c former).leaveTrack c f .owner).changeOwner c (some f) .takeover tag

/-- The owner f gives a channel up (R62, R65). -/
def State.giveUp (s : State) (c : ChanId) (f : Feed) (cause : OwnCause) (tag : Half) : State :=
  (s.enterTrack c f).changeOwner c none cause tag

/-- A feed owns a channel. -/
def State.owns (s : State) (f : Feed) (c : ChanId) : Bool := (s.chan c).owner == some f

/-- The channels a feed owns, in ascending order. -/
def State.ownedBy (s : State) (f : Feed) : List ChanId := (indices 64).filter fun c => s.owns f c

/-- A feed is disabled (R65, R138): its ports go to OFF and every channel it owns is released, channel by channel. That a
channel's GAIN_CANCELLED comes before the next channel's OWNERSHIP is the model's choice: the manual orders the events of
one channel, and each kind by channel (R65, R81, R187; log entry 15). -/
def State.disableFeed (s : State) (f : Feed) (tag : Half) : State :=
  let s1 := (feedPorts f).foldl (State.portDisable tag) { s with feedOn := s.feedOn.set f false }
  (s.ownedBy f).foldl (fun t c => t.giveUp c f .feedOff tag) s1

/-- A feed is enabled (R67, R137): its ports leave OFF. -/
def State.enableFeed (s : State) (f : Feed) (tag : Half) : State :=
  (feedPorts f).foldl (State.portEnable tag) { s with feedOn := s.feedOn.set f true }

end Sys2Proof.Machine
end

