-- ==== Sys2Proof/Machine/Requests.lean ====
section
/-! DEFINITION. The requests (sections 3.4, 3.5, 4.8, 5.3, 6.2, 6.3, 8.6, 9.4, 9.5): the common checks, what each kind does
at its take, and the reply it writes. Each `serve…` is the take of a record of one kind that a walk has reached, and
ends with its outcome written or with the record held for its first new sample (R171). -/

namespace Sys2Proof.Machine

/-! ### The fields of a record (R173, R174) -/

/-- The source of a request. -/
inductive Source where
  | feed (f : Feed)
  | panel
deriving DecidableEq, Repr

/-- A source byte: 1 to 4 FEED_A to FEED_D, 5 PANEL (R173). -/
def decodeSource (v : Byte) : Option Source :=
  match v.toNat with
  | 1 => some (.feed .a)
  | 2 => some (.feed .b)
  | 3 => some (.feed .c)
  | 4 => some (.feed .d)
  | 5 => some .panel
  | _ => none

/-- A feed byte: 0 to 3 for A to D (R173). -/
def decodeFeed (v : Byte) : Option Feed :=
  match v.toNat with
  | 0 => some .a
  | 1 => some .b
  | 2 => some .c
  | 3 => some .d
  | _ => none

/-- A channel byte, 0 to 63 (R173). -/
def decodeChannel (v : Byte) : Option ChanId := if h : v.toNat < 64 then some ⟨v.toNat, h⟩ else none

/-- A feed's console may act on its own feed alone, the panel on any (R57 step 1). -/
def sourceAllows (src : Source) (f : Feed) : Bool :=
  match src with
  | .feed g => g == f
  | .panel => true

/-- The common checks of a kind that uses the channel alone (R174). -/
def State.withChan (s : State) (t : TakeHead) (k : ChanId → Source → State) : State :=
  match decodeChannel t.channel, decodeSource t.source with
  | none, _ => s.finish t .badChannel none
  | some _, none => s.finish t .badSource none
  | some c, some src => k c src

/-- The common checks of a kind that uses the channel and the feed, and the source rule of R57 (R174, R57). -/
def State.withXp (s : State) (t : TakeHead) (k : ChanId → Feed → State) : State :=
  match decodeChannel t.channel, decodeFeed t.feed, decodeSource t.source with
  | none, _, _ => s.finish t .badChannel none
  | some _, none, _ => s.finish t .badFeed none
  | some _, some _, none => s.finish t .badSource none
  | some c, some f, some src => if sourceAllows src f then k c f else s.finish t .badSource none

/-- The common checks of a kind that uses the feed alone, and the source rule of R57 (R174, R67, R68). -/
def State.withFeed (s : State) (t : TakeHead) (k : Feed → State) : State :=
  match decodeFeed t.feed, decodeSource t.source with
  | none, _ => s.finish t .badFeed none
  | some _, none => s.finish t .badSource none
  | some f, some src => if sourceAllows src f then k f else s.finish t .badSource none

/-- The common checks of a kind that uses neither (R174). -/
def State.withSource (s : State) (t : TakeHead) (k : State) : State :=
  match decodeSource t.source with
  | none => s.finish t .badSource none
  | some _ => k

/-- CLAMPED where a value was brought into range, OK otherwise (R175). -/
def okOr (clamped : Bool) : Result := if clamped then .clamped else .ok

/-! ### Replies (section 9.7) -/

/-- The reply of a request on the preamp (section 4.8). -/
def State.preampReply (s : State) (c : ChanId) : List Byte :=
  let ch := s.chan c
  [ownerByte ch.owner, codeByte ch.ack.analog,
   bitsByte ch.ack.padIn ch.ackPhantom ch.tgt.padIn ch.phantomTgt ch.startup false false false,
   codeByte ch.tgt.analog] ++ s16 ch.level ++ [opByte ch.op, u8 (phantomCode ch.phantom)]

/-- The byte of one feed's crosspoint in the reply of READ_CHANNEL. -/
def xpByte (mode : XpMode) (limited : Bool) : Byte :=
  (BitVec.ofBool limited ++ BitVec.ofBool (hasRef mode) ++ (modeByte mode).setWidth 2).setWidth 8

/-- The reply of READ_CHANNEL: the crosspoint fields and the applied level are those of the last computed sample (R96). -/
def State.channelReply (s : State) (c : ChanId) : List Byte :=
  let ch := s.chan c
  let v := s.views[c]
  [codeByte ch.ack.analog,
   bitsByte ch.ack.padIn ch.ackPhantom v.app.padIn ch.tgt.padIn ch.phantomTgt ch.opened ch.urgent ch.startup,
   codeByte v.app.analog, codeByte ch.tgt.analog] ++ s16 v.app.level ++
    [opByte ch.op, u8 (phantomCode ch.phantom), u8 ch.pend.length, ownerByte ch.owner] ++
    allFeeds.map (fun f => xpByte (v.modes.get f) (s.xp c f).limited) ++ [0#8, 0#8] ++
    allFeeds.flatMap (fun f => s16 (v.trims.get f)) ++ allFeeds.flatMap (fun f => s16 (refOf (v.modes.get f)))

/-- The reply of a crosspoint request (R58), from the state that the reply's sample sees. -/
def State.xpReply (s : State) (r : XpReply) : List Byte :=
  let ch := s.chan r.c
  let x := s.xp r.c r.f
  [ownerByte ch.owner, ownerByte r.former, modeByte x.mode,
   bitsByte x.mute x.invert (outOfRange (x.raw ch.level)) (hasRef x.mode) r.codeAdjusted r.trimClamped false false] ++
    s16 ch.level ++ s16 x.trim ++ s16 (refOf x.mode) ++ s16 (x.raw ch.level) ++ s16 (x.gain ch.level)

/-- The reply of RESYNC, from the board's record before the request (R48). -/
def resyncReply (b : BoardId) (x : Board) : List Byte :=
  [u8 b.val, flagByte x.offline, u8 x.failures,
   match x.request with
   | .idle => 0#8
   | .asking => 1#8
   | .deferred => 2#8] ++ u16 (if x.request = .deferred then x.countdown else 0)

/-- The reply of SET_GUARD (R105); a refused request carries neither a_app, a_tgt nor the urgent mark. -/
def State.guardReply (s : State) (c : ChanId) (served : Bool) : List Byte :=
  let g := s.guard c
  let ch := s.chan c
  [flagByte g.enable, u8 g.hold] ++ u16 g.threshold ++ u16 g.rest ++ [u8 g.floor, u8 g.overCount] ++ u16 g.restLeft ++
    [flagByte g.floorReported] ++
    (if served then [codeByte ch.app.analog, codeByte ch.tgt.analog, flagByte ch.urgent] else [0#8, 0#8, 0#8]) ++
    [ownerByte ch.owner]

/-! ### The requests on the preamp (R54, R93 to R96) -/

/-- Authority over analog code and pad: the owner, and the panel on an unowned channel (R54). -/
def authorised (src : Source) (owner : Option Feed) : Bool :=
  match src, owner with
  | .feed f, some g => f == g
  | .feed _, none => false
  | .panel, none => true
  | .panel, some _ => false

/-- Authority over phantom: the owner, and the panel at all times (R54). -/
def phantomAuthorised (src : Source) (owner : Option Feed) : Bool :=
  match src with
  | .feed f => owner == some f
  | .panel => true

/-- A crosspoint's trim set by a request, at an applied level (R55, R63, R69). -/
def Xp.setTrim (x : Xp) (trim lapp : Int) : Xp :=
  { x with
    trim := trim, cause := x.causeOf (x.raw lapp) (({ x with trim := trim } : Xp).raw lapp) .request
    continuity := match x.continuity with
      | .folded _ _ => .settled
      | .entered => .entered
      | .settled => .settled }

/-- The reply of a crosspoint request whose change waits for its first new sample, or at once where nothing changes
(R58). -/
def State.holdOrFinish (s : State) (t : TakeHead) (changes : Bool) (r : Result) (reply : XpReply) : State :=
  if changes then s.hold t r reply else s.finish t r (some (s.xpReply reply))

/-- A SET_ANALOG served as trim (R55). -/
def State.serveAsTrim (s : State) (t : TakeHead) (c : ChanId) (f : Feed) (code : Nat) : State :=
  let x := s.xp c f
  let wanted := x.trim + ((roundCode code : Nat) - (s.chan c).tgt.analog)
  let trim := clampGain wanted
  (s.setXp c f (if trim = x.trim then x else x.setTrim trim (s.chan c).level)).holdOrFinish t (trim != x.trim) .asTrim
    { c := c, f := f, former := none, codeAdjusted := roundCode code != code, trimClamped := trim != wanted, fold := none }

/-- SET_ANALOG at its take (R93). -/
def State.serveSetAnalog (s : State) (t : TakeHead) (code : Half) : State :=
  s.withChan t fun c src =>
    let ch := s.chan c
    if authorised src ch.owner then
      let target : Setting := { ch.tgt with analog := (roundCode code.toNat : Nat) }
      let s1 := s.putChan c (ch.requestTarget c (some t.tag) target)
      s1.finish t (okOr (roundCode code.toNat != code.toNat)) (some (s1.preampReply c))
    else match src with
      | .panel => s.finish t .owned (some (s.preampReply c))
      | .feed f => s.serveAsTrim t c f code.toNat

/-- SET_PAD at its take (R94). -/
def State.serveSetPad (s : State) (t : TakeHead) (v : Byte) : State :=
  s.withChan t fun c src =>
    let ch := s.chan c
    if 1 < v.toNat then s.finish t .badArg (some (s.preampReply c))
    else if authorised src ch.owner then
      let s1 := s.putChan c (ch.requestTarget c (some t.tag) { ch.tgt with padIn := v == 1#8 })
      s1.finish t .ok (some (s1.preampReply c))
    else s.finish t .owned (some (s.preampReply c))

/-- The channel record after an accepted SET_PHANTOM (R95). -/
def Chan.setPhantom (ch : Chan) (on : Bool) : Chan :=
  { ch with
    phantomTgt := on, phantomTgtSet := true
    phantom := if ch.phantom = .faulted then .off else ch.phantom }

/-- SET_PHANTOM at its take (R95). -/
def State.serveSetPhantom (s : State) (t : TakeHead) (v : Byte) : State :=
  s.withChan t fun c src =>
    let ch := s.chan c
    if 1 < v.toNat then s.finish t .badArg (some (s.preampReply c))
    else if phantomAuthorised src ch.owner = false then s.finish t .owned (some (s.preampReply c))
    else if ch.phantom = .faulted ∧ v = 1#8 then s.finish t .faulted (some (s.preampReply c))
    else
      let s1 := s.setChan c (ch.setPhantom (v == 1#8))
      s1.finish t .ok (some (s1.preampReply c))

/-- READ_CHANNEL at its take (R96). -/
def State.serveReadChannel (s : State) (t : TakeHead) : State :=
  s.withChan t fun c _ => s.finish t .ok (some (s.channelReply c))

/-- RESYNC at its take (R48). A countdown that the boundary has run out has turned its request ASKING by then, and the reply
shows it so (R40; log entry 24). -/
def State.serveResync (s : State) (t : TakeHead) : State :=
  s.withChan t fun c _ =>
    let b := boardOf c
    let s1 := s.retryReadback b
    (s1.setBoard b (s1.board b).ask).finish t .ok (some (resyncReply b (s1.board b)))

/-! ### SET_GUARD (R105, R106) -/

/-- The guard record that SET_GUARD stores (R105, R106). -/
def Guard.configure (g : Guard) (enable : Bool) (threshold hold floor rest : Nat) : Guard :=
  let cleared := g.enable && !enable
  { enable := enable
    threshold := clampNat 1 32768 threshold
    hold := clampNat 1 32 hold
    floor := roundCode floor
    rest := clampNat 10 1000 rest
    overCount := if cleared then 0 else g.overCount
    restLeft := if cleared then 0 else g.restLeft
    floorReported := if cleared then false else g.floorReported }

/-- Some number of a SET_GUARD is brought into range (R105). -/
def guardClamped (threshold hold floor rest : Nat) : Bool :=
  clampNat 1 32768 threshold != threshold || clampNat 1 32 hold != hold || roundCode floor != floor ||
    clampNat 10 1000 rest != rest

/-- SET_GUARD at its take (R105). -/
def State.serveSetGuard (s : State) (t : TakeHead) (enable : Byte) (threshold hold floor rest : Half) : State :=
  s.withChan t fun c src =>
    if 1 < enable.toNat then s.finish t .badArg (some (s.guardReply c false))
    else if phantomAuthorised src (s.chan c).owner = false then s.finish t .owned (some (s.guardReply c false))
    else
      let s1 := s.setGuard c
        ((s.guard c).configure (enable == 1#8) threshold.toNat hold.toNat floor.toNat rest.toNat)
      s1.finish t (okOr (guardClamped threshold.toNat hold.toNat floor.toNat rest.toNat)) (some (s1.guardReply c true))

/-! ### The requests on a crosspoint (R57 to R64) -/

/-- The reply of a crosspoint request that is neither a CLAIM, a RELEASE nor served as trim. -/
def plainReply (c : ChanId) (f : Feed) : XpReply :=
  { c := c, f := f, former := none, codeAdjusted := false, trimClamped := false, fold := none }

/-- SET_TRIM at its take (R63). -/
def State.serveSetTrim (s : State) (t : TakeHead) (trim : Half) : State :=
  s.withXp t fun c f =>
    let x := s.xp c f
    let value := clampGain trim.toInt
    (s.setXp c f (if value = x.trim then x else x.setTrim value (s.chan c).level)).holdOrFinish t (value != x.trim)
      (okOr (value != trim.toInt)) (plainReply c f)

/-- SET_MODE at its take (R59). -/
def State.serveSetMode (s : State) (t : TakeHead) (v : Byte) : State :=
  s.withXp t fun c f =>
    let x := s.xp c f
    if 1 < v.toNat then s.finish t .badArg none
    else match x.mode with
      | .owner => s.finish t .isOwner (some (s.xpReply (plainReply c f)))
      | .follow =>
        if v = 1#8 then (s.enterTrack c f).hold t .ok (plainReply c f)
        else s.finish t .ok (some (s.xpReply (plainReply c f)))
      | .track _ =>
        if v = 1#8 then s.finish t .ok (some (s.xpReply (plainReply c f)))
        else (s.leaveTrack c f .follow).hold t .ok { plainReply c f with fold := x.foldOwed }

/-- A flag after a selector: 0 KEEP, 1 OFF, 2 ON (R64, R180). -/
def selectFlag (v : Byte) (old : Bool) : Bool := if v = 0#8 then old else v == 2#8

/-- SET_FLAGS at its take (R64). -/
def State.serveSetFlags (s : State) (t : TakeHead) (mute invert : Byte) : State :=
  s.withXp t fun c f =>
    let x := s.xp c f
    if 2 < mute.toNat ∨ 2 < invert.toNat then s.finish t .badArg none
    else
      let y := { x with mute := selectFlag mute x.mute, invert := selectFlag invert x.invert }
      (s.setXp c f y).holdOrFinish t (y.mute != x.mute || y.invert != x.invert) .ok (plainReply c f)

/-- The reply of a CLAIM or a RELEASE, with the owner before it (R58). -/
def ownerReply (c : ChanId) (f : Feed) (former : Option Feed) : XpReply :=
  { c := c, f := f, former := former, codeAdjusted := false, trimClamped := false, fold := none }

/-- CLAIM at its take (R60, R61). -/
def State.serveClaim (s : State) (t : TakeHead) : State :=
  s.withXp t fun c f =>
    let owner := (s.chan c).owner
    let reply : XpReply := { ownerReply c f owner with fold := (s.xp c f).foldOwed }
    if s.feedOn.get f = false then s.finish t .feedOff (some (s.xpReply reply))
    else match owner with
      | none => (s.claimFree c f t.tag).hold t .ok reply
      | some e =>
        if e = f then s.finish t .ok (some (s.xpReply reply))
        else if s.senior = some f then (s.takeOver c e f t.tag).hold t .ok reply
        else s.finish t .held (some (s.xpReply reply))

/-- RELEASE at its take (R62). -/
def State.serveRelease (s : State) (t : TakeHead) : State :=
  s.withXp t fun c f =>
    let owner := (s.chan c).owner
    let reply := ownerReply c f owner
    if owner = some f then (s.giveUp c f .release t.tag).hold t .ok reply
    else s.finish t .notOwner (some (s.xpReply reply))

/-! ### The requests on a feed (R65 to R68) -/

/-- The senior feed after a selector: 0 KEEP, 1 MAKE, 2 CLEAR (R66, R180). -/
def selectSenior (v : Byte) (f : Feed) (old : Option Feed) : Option Feed :=
  if v = 1#8 then some f else if v = 2#8 ∧ old = some f then none else old

/-- SET_FEED at its take (R67). -/
def State.serveSetFeed (s : State) (t : TakeHead) (enable senior : Byte) : State :=
  s.withFeed t fun f =>
    if 2 < enable.toNat ∨ 2 < senior.toNat then s.finish t .badArg none
    else
      let s1 := { s with senior := selectSenior senior f s.senior }
      let off := enable == 1#8 && s.feedOn.get f
      let on := enable == 2#8 && !s.feedOn.get f
      let s2 := if off then s1.disableFeed f t.tag else if on then s1.enableFeed f t.tag else s1
      s2.finish t .ok (some (padTo 8 [flagByte (s2.feedOn.get f), ownerByte s2.senior] ++
        maskBytes (if off then maskOf (s.owns f) else 0#64)))

/-- A run of bytes lies at a 64-aligned offset wholly inside the request window (R68, R117). -/
def inWindow (off size : Nat) : Bool :=
  off % 64 == 0 && decide (Config.windowBase ≤ off) && decide (off + size ≤ Config.windowEnd)

/-- A slot map byte is a channel or 0xFF (R68, R182). -/
def slotByteValid (v : Byte) : Bool := decide (v.toNat < 64) || v == 0xFF#8

/-- The slot map at an offset (R68, R182). -/
def readSlots (m : List Host.Cell) (off : Nat) : Vector (Option ChanId) 64 :=
  tab fun i : Fin 64 => decodeChannel (readByte m (off + i.val))

/-- A channel is mapped by some slot. -/
def mapped (v : Vector (Option ChanId) 64) (c : ChanId) : Bool := (indices 64).any fun i => v[i] == some c

/-- LOAD_SLOTMAP at its take (R68). -/
def State.serveLoadSlotmap (s : State) (t : TakeHead) (map : Word) : State :=
  s.withFeed t fun f =>
    if inWindow map.toNat 64 = false then s.finish t .badPointer none
    else if (indices 64).all (fun i => slotByteValid (readByte s.ex.mem (map.toNat + i.val))) = false then
      s.finish t .badArg none
    else
      let v := readSlots s.ex.mem map.toNat
      { s with slots := s.slots.set f v }.finish t .ok
        (some (padTo 8 [u8 ((indices 64).countP fun i => v[i] == none), u8 ((indices 64).countP fun c => mapped v c)] ++
          maskBytes (maskOf (mapped v))))

/-! ### The requests on scenes (R117 to R119) -/

/-- The reply of LOAD_SHADOW (R118). -/
def shadowReply (loaded clamped pending : ChanMask) (invalid : Option ChanId) : List Byte :=
  maskBytes loaded ++ maskBytes clamped ++ maskBytes pending ++
    [match invalid with
     | some c => u8 c.val
     | none => 0xFF#8]

/-- LOAD_SHADOW at its take (R117, R118, R130). -/
def State.serveLoadShadow (s : State) (t : TakeHead) (table : Word) (first count : Byte) : State :=
  s.withSource t
    (let sc := s.scenes
     let run := fun c : ChanId => decide (first.toNat ≤ c.val) && decide (c.val < first.toNat + count.toNat)
     let entry := fun c : ChanId => readEntry s.ex.mem (table.toNat + 16 * c.val)
     let clamped := maskOf fun c => run c && (entry c).clamped
     if count = 0#8 ∨ 64 < first.toNat + count.toNat then s.finish t .badArg none
     else if inWindow table.toNat 1024 = false then
       s.finish t .badPointer (some (shadowReply sc.loaded 0#64 0#64 none))
     else if (indices 64).any (fun c => run c && inMask sc.mask c) then
       s.finish t .busy (some (shadowReply sc.loaded 0#64 sc.mask none))
     else match (indices 64).find? (fun c => run c && (entry c).invalid) with
       | some c => s.finish t .badArg (some (shadowReply sc.loaded clamped 0#64 (some c)))
       | none =>
         let loaded := sc.loaded ||| maskOf run
         { s with
           scenes := { sc with
             shadow := tab fun c => if run c then (entry c).record else sc.shadow[c]
             loaded := loaded } }.finish t (okOr (clamped != 0#64)) (some (shadowReply loaded clamped 0#64 none)))

/-- SWAP at its take (R119). -/
def State.serveSwap (s : State) (t : TakeHead) (mask : ChanMask) : State :=
  s.withSource t
    (if mask = 0#64 then s.finish t .badArg none
     else if s.scenes.mask ≠ 0#64 then
       s.finish t .busy (some (maskBytes s.scenes.mask ++ maskBytes 0#64 ++ halfBytes (tagOf s.scenes.tag)))
     else
       { s with scenes := { s.scenes with mask := mask, tag := some t.tag } }.finish t .ok
         (some (maskBytes mask ++ maskBytes (mask &&& s.scenes.loaded))))

/-! ### SET_CLOCK and SET_EXCHANGE (R161, R177) -/

/-- A clock source byte (R180). -/
def decodeClockSource (v : Byte) : Option ClockSource :=
  match v.toNat with
  | 0 => some .internal
  | 1 => some .portC
  | 2 => some .external
  | _ => none

/-- The reply of SET_CLOCK, from the states before and after it (R161). -/
def clockReply (before after : State) : List Byte :=
  let k := after.clock
  [sourceByte k.preferred, refByte k.ref, lockByte k.lock, formByte k.lock k.form,
   flagByte before.ports.c1.state.fit, flagByte before.ports.c2.state.fit, flagByte before.clock.extFit,
   refByte before.clock.ref, lockByte before.clock.lock]

/-- SET_CLOCK at its take (R161). One that is taken after the Clock Unit's work at a boundary finds that work whole: what the
boundary has run out comes to its end first, so that its CLOCK event precedes the SELECT event. -/
def State.serveSetClock (s : State) (t : TakeHead) (source : Byte) : State :=
  s.withSource t
    (match decodeClockSource source with
     | none => s.finish t .badArg none
     | some src =>
       let before := s.clockSettled
       let after := before.selectClock src t.tag
       after.finish t .ok (some (clockReply before after)))

/-- The settings after SET_EXCHANGE (R177). -/
def Exchange.configure (x : Exchange) (select : Byte) (threshold poll meter unitId : Nat) : Exchange :=
  { x with
    threshold := if select.getLsbD 0 then clampNat 0 128 threshold else x.threshold
    pollInterval := if select.getLsbD 1 then clampNat 0 100 poll else x.pollInterval
    pollCountdown := if select.getLsbD 1 then clampNat 0 100 poll else x.pollCountdown
    meterInterval := if select.getLsbD 2 then clampNat 10 250 meter else x.meterInterval
    unitId := if select.getLsbD 3 then clampNat 0 7 unitId else x.unitId }

/-- Some chosen value of a SET_EXCHANGE is brought into range (R177). -/
def exchangeClamped (select : Byte) (threshold poll meter unitId : Nat) : Bool :=
  (select.getLsbD 0 && clampNat 0 128 threshold != threshold) || (select.getLsbD 1 && clampNat 0 100 poll != poll) ||
    (select.getLsbD 2 && clampNat 10 250 meter != meter) || (select.getLsbD 3 && clampNat 0 7 unitId != unitId)

/-- The reply of SET_EXCHANGE (R177). -/
def Exchange.settingsReply (x : Exchange) : List Byte :=
  [u8 x.threshold, u8 x.pollInterval, u8 x.meterInterval, u8 x.unitId, u8 x.pollCountdown, u8 x.meterCountdown]

/-- SET_EXCHANGE at its take (R177). One that is taken after the Exchange Unit's work at a boundary finds that work whole: a
countdown that the boundary has run out comes to its end first (R178; log entry 24). -/
def State.serveSetExchange (s : State) (t : TakeHead) (select : Byte) (threshold poll meter : Half) (unitId : Byte) :
    State :=
  s.withSource t
    (if 15 < select.toNat then s.finish t .badArg none
     else
       let before := s.exchangeSettled
       let x := before.ex.configure select threshold.toNat poll.toNat meter.toNat unitId.toNat
       (before.setEx x).finish t (okOr (exchangeClamped select threshold.toNat poll.toNat meter.toNat unitId.toNat))
         (some x.settingsReply))

/-! ### The walk (R170) -/

/-- A kind in 1 to 17 (R174). -/
def kindKnown (k : Byte) : Bool := decide (1 ≤ k.toNat) && decide (k.toNat ≤ 17)

/-- The owning block acts at the take of a record whose arguments lie in the memory (R171, R173, R180). -/
def State.serveKind (s : State) (t : TakeHead) : State :=
  let m := s.ex.mem
  let a := t.off
  match t.kind.toNat with
  | 1 => s.serveSetAnalog t (readHalf m (a + 0x10))
  | 2 => s.serveSetPad t (readByte m (a + 0x10))
  | 3 => s.serveSetPhantom t (readByte m (a + 0x10))
  | 4 => s.serveReadChannel t
  | 5 => s.serveResync t
  | 6 => s.serveSetGuard t (readByte m (a + 0x10)) (readHalf m (a + 0x12)) (readHalf m (a + 0x14))
      (readHalf m (a + 0x16)) (readHalf m (a + 0x18))
  | 7 => s.serveSetTrim t (readHalf m (a + 0x10))
  | 8 => s.serveSetMode t (readByte m (a + 0x10))
  | 9 => s.serveSetFlags t (readByte m (a + 0x10)) (readByte m (a + 0x11))
  | 10 => s.serveClaim t
  | 11 => s.serveRelease t
  | 12 => s.serveSetFeed t (readByte m (a + 0x10)) (readByte m (a + 0x11))
  | 13 => s.serveLoadSlotmap t (readWord m (a + 0x10))
  | 14 => s.serveLoadShadow t (readWord m (a + 0x10)) (readByte m (a + 0x14)) (readByte m (a + 0x15))
  | 15 => s.serveSwap t (readMask m (a + 0x10))
  | 16 => s.serveSetClock t (readByte m (a + 0x10))
  | 17 => s.serveSetExchange t (readByte m (a + 0x10)) (readHalf m (a + 0x12)) (readHalf m (a + 0x14))
      (readHalf m (a + 0x16)) (readByte m (a + 0x18))
  | _ => s.finish t .badKind none

/-- The header of the record at an offset, as read at its take (R171, R180). -/
def readHead (m : List Host.Cell) (off : Nat) : TakeHead :=
  { off := off, kind := readByte m (off + 1), source := readByte m (off + 2), tag := readHalf m (off + 4),
    channel := readByte m (off + 6), feed := readByte m (off + 7) }

/-- The next field of the record at an offset, or of the anchor (R170 step 1). -/
def nextField (m : List Host.Cell) (off : Nat) : Nat := (readWord m (off + 8)).toNat

/-- The record at an offset is OFFERED (R170 step 4). -/
def offered (m : List Host.Cell) (off : Nat) : Bool := readByte m off == 1#8

/-- A walk that finds no record to take: the end of the chain, or a bad link, which sets CHAIN (R170 steps 2 and 3). -/
def Exchange.deadEnd (x : Exchange) (next : Nat) : Exchange :=
  if next = 0 then x.stopWalk else { x with sticky := { x.sticky with chain := true } }.stopWalk

/-- One pass of a walk through the steps of R170; nothing while no walk runs or a record is in hand. -/
def State.walkStep (s : State) : State :=
  let x := s.ex
  if x.walking && x.inHand.isNone then
    let n := nextField x.mem x.cursor
    if goodOffset n = false then s.setEx (x.deadEnd n)
    else if offered x.mem n = false then s.setEx x.stopWalk
    else s.serveKind (readHead x.mem n)
  else s

/-! ### A request offered by the controller (section 9.3, R172, R173; log entry 2) -/

/-- The last record that a walk from an offset would take: it follows next fields as long as they lead to OFFERED
records. -/
def chainTail (m : List Host.Cell) : Nat → Nat → Nat
  | 0, off => off
  | k + 1, off =>
    let n := nextField m off
    if goodOffset n && offered m n then chainTail m k n else off

/-- The record at which the controller extends the chain: the last one that waits, from the record in hand or the cursor
on. The request window has room for 1,022 records. -/
def Exchange.tail (x : Exchange) : Nat := chainTail x.mem 1022 (match x.inHand with
  | some h => h.head.off
  | none => x.cursor)

/-- The bytes of a request record up to its reply, built whole with status OFFERED and next 0 (R173, R180). -/
def recordBytes (h : ReqHead) (kind : Byte) (args : List Byte) : List Byte :=
  [1#8, kind, h.source, 0#8] ++ halfBytes h.tag ++ [h.channel, h.feed] ++ List.replicate 8 0#8 ++ padTo 16 args

/-- The controller builds a record and links it at the end of the chain (section 9.3). At an offset where no record may lie
it writes the link alone. -/
def Exchange.offer (x : Exchange) (h : ReqHead) (kind : Byte) (args : List Byte) : Exchange :=
  let m := if h.wf then controllerWrites x.mem h.off.toNat (recordBytes h kind args) else x.mem
  { x with mem := controllerWrites m (x.tail + 8) (wordBytes h.off) }

/-- A walk stands at the end of the chain with no record in hand, so that it takes the record linked there next. -/
def Exchange.atTail (x : Exchange) : Bool := x.walking && x.inHand.isNone && x.tail == x.cursor

/-- The head of an offered record as read at its take. -/
def takeHead (h : ReqHead) (kind : Byte) : TakeHead :=
  { off := h.off.toNat, kind := kind, source := h.source, tag := h.tag, channel := h.channel, feed := h.feed }

/-- A request command: the controller offers the record, and a walk that stands at the end of the chain takes it; otherwise
the record waits in the chain. -/
def State.request (s : State) (h : ReqHead) (kind : Byte) (args : List Byte) (serve : State → TakeHead → State) :
    Host.Outcome State Fault Refusal :=
  let s1 := s.setEx (s.ex.offer h kind args)
  .next (if s.ex.atTail then
      if h.wf then serve s1 (takeHead h kind) else s1.setEx (s1.ex.deadEnd h.off.toNat)
    else s1)

/-! ### The meanings of the request commands -/

/-- BAD_KIND (R174): a record whose kind is outside 1 to 17 is refused; a kind inside is taken by its own rule. -/
def execBadKind (h : ReqHead) (kind : Byte) (s : State) : Host.Outcome State Fault Refusal :=
  s.request h kind [] fun s t => if kindKnown kind then s.serveKind t else s.finish t .badKind none

/-- SET_ANALOG (R93). -/
def execSetAnalog (h : ReqHead) (code : Half) (s : State) : Host.Outcome State Fault Refusal :=
  s.request h 1#8 (halfBytes code) fun s t => s.serveSetAnalog t code

/-- SET_PAD (R94). -/
def execSetPad (h : ReqHead) (v : Byte) (s : State) : Host.Outcome State Fault Refusal :=
  s.request h 2#8 [v] fun s t => s.serveSetPad t v

/-- SET_PHANTOM (R95). -/
def execSetPhantom (h : ReqHead) (v : Byte) (s : State) : Host.Outcome State Fault Refusal :=
  s.request h 3#8 [v] fun s t => s.serveSetPhantom t v

/-- READ_CHANNEL (R96). -/
def execReadChannel (h : ReqHead) (s : State) : Host.Outcome State Fault Refusal :=
  s.request h 4#8 [] fun s t => s.serveReadChannel t

/-- RESYNC (R48). -/
def execResync (h : ReqHead) (s : State) : Host.Outcome State Fault Refusal :=
  s.request h 5#8 [] fun s t => s.serveResync t

/-- SET_GUARD (R105). -/
def execSetGuard (h : ReqHead) (enable : Byte) (threshold hold floor rest : Half) (s : State) :
    Host.Outcome State Fault Refusal :=
  s.request h 6#8 ([enable, 0#8] ++ halfBytes threshold ++ halfBytes hold ++ halfBytes floor ++ halfBytes rest)
    fun s t => s.serveSetGuard t enable threshold hold floor rest

/-- SET_TRIM (R63). -/
def execSetTrim (h : ReqHead) (trim : Half) (s : State) : Host.Outcome State Fault Refusal :=
  s.request h 7#8 (halfBytes trim) fun s t => s.serveSetTrim t trim

/-- SET_MODE (R59). -/
def execSetMode (h : ReqHead) (v : Byte) (s : State) : Host.Outcome State Fault Refusal :=
  s.request h 8#8 [v] fun s t => s.serveSetMode t v

/-- SET_FLAGS (R64). -/
def execSetFlags (h : ReqHead) (mute invert : Byte) (s : State) : Host.Outcome State Fault Refusal :=
  s.request h 9#8 [mute, invert] fun s t => s.serveSetFlags t mute invert

/-- CLAIM (R60, R61). -/
def execClaim (h : ReqHead) (s : State) : Host.Outcome State Fault Refusal :=
  s.request h 10#8 [] fun s t => s.serveClaim t

/-- RELEASE (R62). -/
def execRelease (h : ReqHead) (s : State) : Host.Outcome State Fault Refusal :=
  s.request h 11#8 [] fun s t => s.serveRelease t

/-- SET_FEED (R67). -/
def execSetFeed (h : ReqHead) (enable senior : Byte) (s : State) : Host.Outcome State Fault Refusal :=
  s.request h 12#8 [enable, senior] fun s t => s.serveSetFeed t enable senior

/-- LOAD_SLOTMAP (R68). -/
def execLoadSlotmap (h : ReqHead) (map : Word) (s : State) : Host.Outcome State Fault Refusal :=
  s.request h 13#8 (wordBytes map) fun s t => s.serveLoadSlotmap t map

/-- LOAD_SHADOW (R117). -/
def execLoadShadow (h : ReqHead) (table : Word) (first count : Byte) (s : State) : Host.Outcome State Fault Refusal :=
  s.request h 14#8 (wordBytes table ++ [first, count]) fun s t => s.serveLoadShadow t table first count

/-- SWAP (R119). -/
def execSwap (h : ReqHead) (mask : ChanMask) (s : State) : Host.Outcome State Fault Refusal :=
  s.request h 15#8 (maskBytes mask) fun s t => s.serveSwap t mask

/-- SET_CLOCK (R161). -/
def execSetClock (h : ReqHead) (source : Byte) (s : State) : Host.Outcome State Fault Refusal :=
  s.request h 16#8 [source] fun s t => s.serveSetClock t source

/-- SET_EXCHANGE (R177). -/
def execSetExchange (h : ReqHead) (select : Byte) (threshold poll meter : Half) (unitId : Byte) (s : State) :
    Host.Outcome State Fault Refusal :=
  s.request h 17#8 ([select, 0#8] ++ halfBytes threshold ++ halfBytes poll ++ halfBytes meter ++ [unitId])
    fun s t => s.serveSetExchange t select threshold poll meter unitId

end Sys2Proof.Machine
end

