-- ==== Sys2Proof/Machine/Boundary.lean ====
section
/-! DEFINITION. Block boundaries and the steps that fall due by time: the meanings of BLOCK_BOUNDARY, SWAP_APPLY,
METER_CLOSE, POLL_COUNTDOWN_EXPIRY, READBACK_RETRY, ACQUISITION_TIMEOUT, CLOCK_RETRY, FORCED_STEP, PENDING_APPLICATION,
RAMP_END, ANSWER_WINDOW_EXPIRY and ARBITER_DECISION. A step that is not due changes nothing (log entry 6). -/

namespace Sys2Proof.Machine

/-! ### The boundary work (R153) -/

/-- One block's work at a boundary. -/
def State.unitWork (s : State) (u : BoundaryUnit) (phase : PhaseInput) : State :=
  match u with
  | .meterGuard => s.meterBoundary
  | .preampLine => s.lineBoundary
  | .sceneStore => s.sceneBoundary
  | .feedPorts => s.portsBoundary
  | .exchange => s.setEx (s.ex.boundary s.frame)
  | .clock => s.clockBoundary phase

/-- One block's work at the boundary of the running period, if it is still to be done (R153). Its events join the queue as it
is made: R187 lets the events of different blocks join in either order, whichever block's work was taken first, and that the
model ties their order to the order of the work is its choice (log entry 42). -/
def State.unitBoundary (phase : PhaseInput) (s : State) (u : BoundaryUnit) : State :=
  if s.owed.contains u then { s with owed := s.owed.filter fun v => v != u }.unitWork u phase else s

/-- The boundary work of several blocks, in order. -/
def State.boundaryWork (s : State) (units : List BoundaryUnit) (phase : PhaseInput) : State :=
  units.foldl (State.unitBoundary phase) s

/-- BLOCK_BOUNDARY (R153). -/
def execBlockBoundary (units : List BoundaryUnit) (phase : PhaseInput) (s : State) : Host.Outcome State Fault Refusal :=
  .next (s.boundaryWork units phase)

/-- SWAP_APPLY (R121): the Scene Store's work at the boundary of the running period. -/
def execSwapApply (s : State) : Host.Outcome State Fault Refusal :=
  .next (s.boundaryWork [.sceneStore] { inside := false, rate := 0 })

/-- METER_CLOSE (R101, R178). -/
def execMeterClose (s : State) : Host.Outcome State Fault Refusal := .next s.closeInterval

/-- POLL_COUNTDOWN_EXPIRY (R178). -/
def execPollCountdownExpiry (s : State) : Host.Outcome State Fault Refusal := .next (s.setEx s.ex.pollExpires)

/-- READBACK_RETRY (R40). -/
def execReadbackRetry (b : BoardId) (s : State) : Host.Outcome State Fault Refusal := .next (s.retryReadback b)

/-- ACQUISITION_TIMEOUT (R156). -/
def execAcquisitionTimeout (s : State) : Host.Outcome State Fault Refusal := .next s.acquisitionGivesUp

/-- CLOCK_RETRY (R160). -/
def execClockRetry (s : State) : Host.Outcome State Fault Refusal := .next s.clockRetries

/-! ### The steps of a channel -/

/-- A forced step, if the crossing window has run out (R73). A command given after the SAMPLE_PERIOD that runs the window out
and before this step finds the channel in ZC_WAIT still, its forced count not raised, which is the model's choice (log entry
44). -/
def State.forceStep (s : State) (c : ChanId) : State :=
  if (s.chan c).forcedDue then s.setChan c (s.chan c).force else s

/-- FORCED_STEP (R73). -/
def execForcedStep (c : ChanId) (s : State) : Host.Outcome State Fault Refusal := .next (s.forceStep c)

/-- The application of the head of the pending list, if it is due (R77). Of two entries with one due sample, which R70 rules
out, each takes a PENDING_APPLICATION of its own (log entry 45). -/
def State.applyPending (s : State) (c : ChanId) : State :=
  if (s.chan c).applicationDue s.frame then s.putChan c ((s.chan c).applyHead c) else s

/-- PENDING_APPLICATION (R77). -/
def execPendingApplication (c : ChanId) (s : State) : Host.Outcome State Fault Refusal := .next (s.applyPending c)

/-- The end of a ramp, if the ramp count has reached 0 (R91). An answer or a readback given after the SAMPLE_PERIOD that runs
the count to 0 and before this step acts on a ramp in progress: one that restarts it, or settles the supply, leaves no
RAMP_END event of the ended ramp, which is the model's choice (log entry 44). -/
def State.finishRamp (s : State) (c : ChanId) : State :=
  if (s.chan c).rampDue then s.putChan c ((s.chan c).endRamp c) else s

/-- RAMP_END (R91). -/
def execRampEnd (c : ChanId) (s : State) : Host.Outcome State Fault Refusal := .next (s.finishRamp c)

/-! ### The line -/

/-- ANSWER_WINDOW_EXPIRY (R35). -/
def execAnswerWindowExpiry (s : State) : Host.Outcome State Fault Refusal := .next s.windowExpires

/-- ARBITER_DECISION (R43). -/
def execArbiterDecision (first : ReqId) (s : State) : Host.Outcome State Fault Refusal := .next (s.arbitrate (some first))

/-- ANSWER_CHARACTER (R29, R35). -/
def execAnswerCharacter (ch : LineChar) (s : State) : Host.Outcome State Fault Refusal := .next (s.receiveChar ch)

/-! ### What is still due in the running period -/

/-- The phase measurement of a boundary that no command has told: free values (log entry 4). -/
def freePhase (frame : Word) : PhaseInput := { inside := Config.phaseInside frame, rate := Config.measuredRate frame }

/-- One channel's steps that are due. -/
def State.chanDue (s : State) (c : ChanId) : State := ((s.forceStep c).finishRamp c).applyPending c

/-- A reply that is ready is still to be written (R58). -/
def Exchange.replyDue (x : Exchange) : Bool :=
  match x.inHand with
  | some h => h.ready.isSome
  | none => false

/-- Nothing is due that has to come before the running sample: neither a reply, nor a channel's step, nor the end of the
answer window, nor a decision. -/
def State.calmBefore (s : State) : Bool :=
  !s.ex.replyDue && !s.windowDue && (s.line.isSome || !s.anyAsks) &&
    (indices 64).all fun c => !(s.chan c).forcedDue && !(s.chan c).rampDue && !(s.chan c).applicationDue s.frame

/-- Nothing of a boundary is still due: neither a block's work nor a countdown's expiry. -/
def State.calmAfter (s : State) : Bool :=
  s.owed.isEmpty && !s.clock.timeoutDue && !s.clock.retryDue && !s.ex.pollDue && !s.closeDue &&
    (indices 8).all fun b => !(s.board b).retryDue

/-- Nothing of the running period is still due. -/
def State.quiet (s : State) : Bool := s.calmBefore && s.calmAfter

/-- What is due before the sample of the running period: the reply that is ready, the channels' steps, the end of the answer
window and a decision (log entry 6). -/
def State.catchUp (s : State) : State :=
  if s.calmBefore then s
  else ((indices 64).foldl State.chanDue (s.setEx s.ex.writeReply)).windowExpires.arbitrate none

/-- The boundary work that no command has made yet, in the model's order, and what it brings to its end (log entries 6 and
24). -/
def State.boundaryRest (s : State) : State :=
  if s.calmAfter then s
  else
    ((indices 8).foldl State.retryReadback (s.boundaryWork allUnits (freePhase s.frame)).clockSettled).exchangeSettled

end Sys2Proof.Machine
end

