-- ==== Sys2Proof/Machine/Sample.lean ====
section
/-! DEFINITION. The sample period: lane frames (section 2.1), the Split Matrix's computation (R9 to R19), the per-sample
watches and counts, and the step to the next period. -/

namespace Sys2Proof.Machine

/-! ### Converter lanes (R22 to R26) -/

/-- A lane's record after its frame of the period has been judged, with its event (R23 to R25). -/
def Lane.receive (l : Lane) (lane : LaneId) (isGood : Bool) : Lane × List Event :=
  if isGood then
    if l.fault then
      if 16 ≤ l.run + 1 then ({ fault := false, run := 0, judged := true }, [.input lane false])
      else ({ fault := true, run := l.run + 1, judged := true }, [])
    else ({ l with judged := true }, [])
  else ({ fault := true, run := 0, judged := true }, if l.fault then [] else [.input lane true])

/-- The frame arrived with its framing intact (R23). -/
def LaneInputGood : LaneInput → Bool
  | .good _ => true
  | .framingError | .missing => false

/-- The sample that a frame carries at a place (R22). -/
def frameSample (f : LaneInput) (i : Fin 8) : Int :=
  match f with
  | .good v => v[i].toInt
  | .framingError | .missing => 0

/-- A lane's frame of the running period: judged once, and its samples delivered, or zeros (R22, R23). -/
def State.judgeLane (s : State) (lane : LaneId) (f : LaneInput) : State :=
  let l := s.lanes[lane]
  if l.judged then s
  else
    let r := l.receive lane (LaneInputGood f)
    { s with
      lanes := upd s.lanes lane r.1
      samples := tab fun c =>
        if boardOf c = lane then (if r.1.fault then 0 else frameSample f (placeOf c)) else s.samples[c] }.raiseAll r.2

/-- LANE_FRAME (R22 to R25). -/
def execLaneFrame (lane : LaneId) (f : LaneInput) (s : State) : Host.Outcome State Fault Refusal :=
  .next (s.judgeLane lane f)

/-- A lane whose frame has not arrived when the sample of the period is computed has a bad frame (R23). The order of the INPUT
events of several such lanes, ascending, and that they come before the LIMIT events of the same sample, are the model's
choice: the manual gives neither (R24, R187; log entry 15). -/
def State.missingFrames (s : State) : State := (indices 8).foldl (fun t g => t.judgeLane g .missing) s

/-! ### The Split Matrix (R9 to R19) -/

/-- The output sample of a crosspoint in the running period, and whether it saturated (R11 to R17). -/
def State.xpSample (s : State) (c : ChanId) (f : Feed) : Int × Bool :=
  let ch := s.chan c
  let x := s.xp c f
  sampleOut s.samples[c] (x.gain ch.level) x.invert (mutedAt ch x)

/-- A crosspoint after the running sample: its limited flag formed, its saturation recorded, its new record in force
(R10, R18, R51, R52). -/
def State.xpAfter (s : State) (c : ChanId) (f : Feed) : Xp :=
  let x := s.xp c f
  { x with
    limited := outOfRange (x.raw (s.chan c).level), satSeen := x.satSeen || (s.xpSample c f).2, continuity := .settled
    cause := .level }

/-- The LIMIT event of a crosspoint whose limited flag changes at the running sample (R69). -/
def State.limitEvent (s : State) (c : ChanId) (f : Feed) : List Event :=
  let x := s.xp c f
  let lapp := (s.chan c).level
  if outOfRange (x.raw lapp) = x.limited then []
  else [.limit c f (outOfRange (x.raw lapp)) x.cause (x.raw lapp) (x.gain lapp) lapp]

/-- The LIMIT events of the running sample, in ascending channel order and feed order: R69 gives that order to the flags that
change from one cause, and that flags of different causes stand in one such order too is the model's choice (log entry
15). -/
def State.limitEvents (s : State) : List Event := (indices 64).flatMap fun c => allFeeds.flatMap fun f => s.limitEvent c f

/-- The reply of the record in hand as its first new sample sees it, with CLAMPED where the fold was clamped (R52,
R58). -/
def State.latchReply (s : State) : Exchange :=
  match s.ex.inHand with
  | none => s.ex
  | some h =>
    match h.ready with
    | some _ => s.ex
    | none =>
      let clamped := h.reply.foldClamped (s.chan h.reply.c).level
      let r := if h.result = .ok ∧ clamped = true then .clamped else h.result
      { s.ex with inHand := some { h with ready := some (r, s.xpReply h.reply) } }

/-- What the running sample uses of a channel (R96). -/
def State.viewOf (s : State) (c : ChanId) : SampleView :=
  { app := (s.chan c).app, modes := PerFeed.of fun f => (s.xp c f).mode, trims := PerFeed.of fun f => (s.xp c f).trim }

/-- The 256 outputs of the running sample, with all that the sample changes in the crosspoints, and its LIMIT events. -/
def State.computeSample (s : State) : State :=
  { s with
    outputs := tab fun c => PerFeed.of fun f => (s.xpSample c f).1
    xps := tab fun c => PerFeed.of fun f => s.xpAfter c f
    views := tab fun c => s.viewOf c
    ex := s.latchReply }.raiseAll s.limitEvents

/-! ### The watches and counts of a sample period -/

/-- A sample is a crossing (R73). -/
def crosses (lastNeg : Bool) (x : Int) : Bool := x == 0 || decide (x < 0) != lastNeg

/-- A channel's zero-crossing watch and ramp count at the running sample (R73, R91). -/
def Chan.watch (ch : Chan) (x : Int) : Chan :=
  let examined := ch.op == .zcWait && !ch.fresh && ch.window != 0
  let crossing := examined && crosses ch.lastNeg x
  { ch with
    op := if crossing then .lineWait else ch.op
    window := if examined && !crossing then ch.window - 1 else ch.window
    lastNeg := decide (x < 0)
    ramp := if ch.rampMute then ch.ramp - 1 else ch.ramp }

/-- The in-flight record one sample period later (section 2.3). -/
def InFlight.age (t : InFlight) : InFlight := { t with window := min Config.answerWindow (t.window + 1) }

/-- The zero-crossing watches, the ramp counts and the answer window at the running sample. -/
def State.watchAll (s : State) : State :=
  { s with chans := tab fun c => (s.chan c).watch s.samples[c], line := s.line.map InFlight.age }

/-- The sample of the running period: the lanes' frames are in, the outputs are computed, the watches look at the sample, and
its frames are built (R11, R22, R73, R91, R132). -/
def State.takeSample (s : State) : State := s.missingFrames.computeSample.watchAll.sendFrames

/-! ### The end of a sample period -/

/-- A frame number raises the block boundary (R152, R153). -/
def isBoundary (frame : Word) : Bool := frame.toNat % Config.blockPeriods == 0

/-- The period ends and the next one begins: the block records take its sample, which is the first of the new block where the
period raised a boundary, the frame counter has risen by one, and a boundary's work is owed if the new frame number raises
one (R97, R98, R152, R153). Of an operation state that changes within the period, the one that stands at its end is taken: R97
says which governs for the lane alone, so this is the model's choice (log entry 40). -/
def State.endPeriod (s : State) : State :=
  let n := s.frame + 1#32
  { s with
    blocks := tab fun c => s.blocks[c].sample s.samples[c] s.lanes[boardOf c].fault ((s.chan c).op == .suspect)
    chans := tab fun c => { s.chan c with fresh := false }
    frame := n
    owed := if isBoundary n then allUnits else []
    lanes := tab fun g => { s.lanes[g] with judged := false } }

/-- SAMPLE_PERIOD (R11): the steps that are due before the sample are done, the sample of the running period is computed, then
the boundary work that no command has made yet is done, and the next period begins. A boundary's work thus comes before the
sample of its period where a command makes it, and after that sample where it is left to SAMPLE_PERIOD (R9, R18; log entry
6). No request is taken and no answer ends a transaction between the sample and the end of its period, though R9, R58 and R135
allow it: a take, and a change of phantom or operation state made at an answer, come before the sample of their own period,
which is the model's choice (log entry 39). -/
def execSamplePeriod (s : State) : Host.Outcome State Fault Refusal :=
  .next s.catchUp.takeSample.boundaryRest.endPeriod

/-! ### What else arrives from outside in a period -/

/-- RETURN_WORD (R140). -/
def execReturnWord (p : Port) (w : ReturnWord) (s : State) : Host.Outcome State Fault Refusal :=
  .next (s.setPort p ((s.port p).arrive w))

/-- WORD_CLOCK_EDGE (R154). -/
def execWordClockEdge (s : State) : Host.Outcome State Fault Refusal := .next { s with clock := s.clock.edgeArrives }

/-- POWER_ON_RESET: every block's state at its power-on value (R70 and the power-on values of every chapter); the commands
that wait outside the part still wait. -/
def execPowerOnReset (s : State) : Host.Outcome State Fault Refusal := .next { State.reset with pending := s.pending }

end Sys2Proof.Machine
end

