-- ==== Sys2Proof/Machine/Registers.lean ====
section
/-! DEFINITION. The meanings of the register writes, of the walk, of REPLY_WRITE, EXCHANGE_CLEAR and REPORT_WRITE (Chapters
9 and 10). -/

namespace Sys2Proof.Machine

/-- POKE (R169): a write of any value, discarded while ENABLE is 0. -/
def execPoke (_value : Word) (s : State) : Host.Outcome State Fault Refusal :=
  .next (if s.ex.enable then s.setEx s.ex.trigger else s)

/-- RELEASE_WRITE (R189): bits 7 to 0 are N. -/
def execReleaseWrite (value : Word) (s : State) : Host.Outcome State Fault Refusal :=
  .next (s.setEx (s.ex.giveBack (value.toNat % 256)))

/-- NOTICE_WRITE (R166). -/
def execNoticeWrite (value : Word) (s : State) : Host.Outcome State Fault Refusal :=
  .next (s.setEx { s.ex with sticky := s.ex.sticky.clearBits value })

/-- NOTICE_MASK_WRITE (R166). -/
def execNoticeMaskWrite (value : Word) (s : State) : Host.Outcome State Fault Refusal :=
  .next (s.setEx { s.ex with mask := value.setWidth 5 })

/-- BLOCKS (R167 action 1). -/
def execBlocks (code : BitVec 2) (s : State) : Host.Outcome State Fault Refusal := .next (s.setEx (s.ex.setBlocks code))

/-- ENABLE (R167 action 2). -/
def execEnable (on : Bool) (s : State) : Host.Outcome State Fault Refusal := .next (s.setEx (s.ex.setEnable on))

/-- CLEAR (R167 action 3, R179). -/
def execClear (on : Bool) (s : State) : Host.Outcome State Fault Refusal :=
  .next (if on then s.setEx s.ex.askClear else s)

/-- EXCHANGE_CLEAR (R179): the clear that was asked for, waiting for the record in hand if there is one. -/
def execExchangeClear (s : State) : Host.Outcome State Fault Refusal := .next (s.setEx s.ex.askClear)

/-- REGISTER_WRITE_IGNORED (R166): a write to IDENT is discarded, and the bits that the table does not name have no effect;
the named bits of the same word act by their own rules (log entry 33). -/
def execRegisterWriteIgnored (reg : Reg) (value : Word) (s : State) : Host.Outcome State Fault Refusal :=
  .next (s.setEx (s.ex.writeReg reg value))

/-- REPORT_WRITE (R186). -/
def execReportWrite (s : State) : Host.Outcome State Fault Refusal := .next (s.setEx s.ex.writeNext)

/-- REPLY_WRITE (R58). -/
def execReplyWrite (s : State) : Host.Outcome State Fault Refusal := .next (s.setEx s.ex.writeReply)

/-- CHAIN_WALK (R170): the controller's writes reach the memory (R164), and the walk makes one pass. A write beyond the
exchange memory faults. -/
def execChainWalk (writes : List Host.Cell) (s : State) : Host.Outcome State Fault Refusal :=
  match writes.find? fun w => decide (Config.memorySize ≤ w.1) with
  | some w => .fault (.outsideExchangeMemory w.1)
  | none => .next (s.setEx { s.ex with mem := controllerCells s.ex.mem writes }).walkStep

end Sys2Proof.Machine
end

