-- ==== Sys2Proof/Machine/Dispatch.lean ====
section
/-! DEFINITION. One arm for each command: a direct call of its meaning. -/

namespace Sys2Proof.Machine

def exec (i : Instr) (s : State) : Host.Outcome State Fault Refusal :=
  match i with
  | .powerOnReset => Sys2Proof.Machine.execPowerOnReset s
  | .samplePeriod => Sys2Proof.Machine.execSamplePeriod s
  | .laneFrame lane frame => Sys2Proof.Machine.execLaneFrame lane frame s
  | .arbiterDecision first => Sys2Proof.Machine.execArbiterDecision first s
  | .answerCharacter ch => Sys2Proof.Machine.execAnswerCharacter ch s
  | .answerWindowExpiry => Sys2Proof.Machine.execAnswerWindowExpiry s
  | .forcedStep c => Sys2Proof.Machine.execForcedStep c s
  | .pendingApplication c => Sys2Proof.Machine.execPendingApplication c s
  | .rampEnd c => Sys2Proof.Machine.execRampEnd c s
  | .blockBoundary units phase => Sys2Proof.Machine.execBlockBoundary units phase s
  | .acquisitionTimeout => Sys2Proof.Machine.execAcquisitionTimeout s
  | .clockRetry => Sys2Proof.Machine.execClockRetry s
  | .readbackRetry b => Sys2Proof.Machine.execReadbackRetry b s
  | .pollCountdownExpiry => Sys2Proof.Machine.execPollCountdownExpiry s
  | .meterClose => Sys2Proof.Machine.execMeterClose s
  | .swapApply => Sys2Proof.Machine.execSwapApply s
  | .returnWord p w => Sys2Proof.Machine.execReturnWord p w s
  | .wordClockEdge => Sys2Proof.Machine.execWordClockEdge s
  | .chainWalk writes => Sys2Proof.Machine.execChainWalk writes s
  | .replyWrite => Sys2Proof.Machine.execReplyWrite s
  | .badKind h kind => Sys2Proof.Machine.execBadKind h kind s
  | .setAnalog h code => Sys2Proof.Machine.execSetAnalog h code s
  | .setPad h v => Sys2Proof.Machine.execSetPad h v s
  | .setPhantom h v => Sys2Proof.Machine.execSetPhantom h v s
  | .readChannel h => Sys2Proof.Machine.execReadChannel h s
  | .resync h => Sys2Proof.Machine.execResync h s
  | .setGuard h enable threshold hold floor rest => Sys2Proof.Machine.execSetGuard h enable threshold hold floor rest s
  | .setTrim h trim => Sys2Proof.Machine.execSetTrim h trim s
  | .setMode h v => Sys2Proof.Machine.execSetMode h v s
  | .setFlags h mute invert => Sys2Proof.Machine.execSetFlags h mute invert s
  | .claim h => Sys2Proof.Machine.execClaim h s
  | .release h => Sys2Proof.Machine.execRelease h s
  | .setFeed h enable senior => Sys2Proof.Machine.execSetFeed h enable senior s
  | .loadSlotmap h map => Sys2Proof.Machine.execLoadSlotmap h map s
  | .loadShadow h table first count => Sys2Proof.Machine.execLoadShadow h table first count s
  | .swap h mask => Sys2Proof.Machine.execSwap h mask s
  | .setClock h source => Sys2Proof.Machine.execSetClock h source s
  | .setExchange h select threshold poll meter unitId => Sys2Proof.Machine.execSetExchange h select threshold poll meter unitId s
  | .poke value => Sys2Proof.Machine.execPoke value s
  | .releaseWrite value => Sys2Proof.Machine.execReleaseWrite value s
  | .noticeWrite value => Sys2Proof.Machine.execNoticeWrite value s
  | .noticeMaskWrite value => Sys2Proof.Machine.execNoticeMaskWrite value s
  | .blocks code => Sys2Proof.Machine.execBlocks code s
  | .enable on => Sys2Proof.Machine.execEnable on s
  | .clear on => Sys2Proof.Machine.execClear on s
  | .exchangeClear => Sys2Proof.Machine.execExchangeClear s
  | .registerWriteIgnored reg value => Sys2Proof.Machine.execRegisterWriteIgnored reg value s
  | .reportWrite => Sys2Proof.Machine.execReportWrite s

end Sys2Proof.Machine
end

