-- ==== Sys2Proof/Safety.lean ====
section
/-! DEFINITION. What a safe state is, in the terms the statements use: the laws of the device that the manual states, as
predicates on one state, the ways in which a request's take can end, and the fields of a layout. -/

namespace Sys2Proof.Machine

/-! ### Levels, trims and references (R3, R4, R5) -/

/-- An analog code of R3: a multiple of 6 in 0 to 240. -/
abbrev Setting.legal (x : Setting) : Prop := 0 ≤ x.analog ∧ x.analog ≤ 240 ∧ x.analog % 6 = 0

/-- One of the 82 levels (R3): a multiple of 6 from 0 to 240, or one 80 below it. -/
abbrev legalLevel (x : Int) : Prop := (0 ≤ x ∧ x ≤ 240 ∧ x % 6 = 0) ∨ (-80 ≤ x ∧ x ≤ 160 ∧ x % 6 = 4)

/-- A trim of R4. -/
abbrev legalTrim (x : Int) : Prop := -240 ≤ x ∧ x ≤ 96

/-- Every setting a channel record holds is legal: the acknowledged, the applied and the target setting, the pending
applications, and the last sent state, from which a cancellation sets the target (R3, R82). -/
abbrev Chan.legal (ch : Chan) : Prop :=
  ch.ack.legal ∧ ch.app.legal ∧ ch.tgt.legal ∧ (∀ e ∈ ch.pend, e.setting.legal) ∧
    ∀ l, ch.lastSent = some l → l.sent.setting.legal

/-- A crosspoint's trim is legal, and its reference is a level (R4, R5). -/
abbrev Xp.legal (x : Xp) : Prop := legalTrim x.trim ∧ ∀ r, x.mode = .track r → legalLevel r

/-- A shadow record's target and trims are legal (R114). -/
abbrev SceneRecord.legal (r : SceneRecord) : Prop := r.target.legal ∧ ∀ f, legalTrim (r.feeds.get f).trim

/-- The positions among the characters of an answer without an error are 0 to 40 (R33, R34). -/
abbrev InFlight.sound (t : InFlight) : Prop :=
  t.firstError = none → ∀ i, i < t.data.length → i % 2 = 1 → (t.data.getD i 0#8).toNat % 64 ≤ 40

/-- The law of R3, R4 and R5: every analog code, trim and reference lies in its set. -/
def State.LevelLaw (s : State) : Prop :=
  (∀ c, (s.chan c).legal) ∧ (∀ c f, (s.xp c f).legal) ∧ (∀ c : ChanId, s.scenes.shadow[c].legal) ∧
    ∀ t, s.line = some t → t.sound

/-! ### Ownership (R53) -/

/-- The law of R53: a crosspoint is in OWNER mode exactly when its feed is the channel's owner, and an owner is an enabled
feed. -/
def State.OwnerLaw (s : State) : Prop :=
  (∀ c f, (s.xp c f).mode = .owner ↔ (s.chan c).owner = some f) ∧
    ∀ c f, (s.chan c).owner = some f → s.feedOn.get f = true

/-! ### The exchange (R168, R185, R187) -/

/-- The laws of R185 and R187, and what ties the walk to the record in hand (R168, R179): a record is in hand only while a
walk runs, and an exchange clear waits only for a record in hand. -/
def Exchange.StoreLaw (x : Exchange) : Prop :=
  x.queue.length ≤ Config.queueDepth ∧ x.filled ≤ x.count ∧ x.oldest < x.count ∧
    (x.inHand.isSome = true → x.walking = true) ∧ (x.clearAsked = true → x.inHand.isSome = true)

/-- The law of R168: the cursor holds the anchor offset or the offset of a 64-aligned record inside the request window, and
so does the record in hand; the memory keeps its canonical form and lists no byte of the status area. -/
def Exchange.WalkLaw (x : Exchange) : Prop :=
  (x.cursor = Config.anchor ∨ goodOffset x.cursor = true) ∧ (∀ h, x.inHand = some h → goodOffset h.head.off = true) ∧
    Memory.wf x.mem ∧ ∀ cell ∈ x.mem, Config.anchor ≤ cell.1

/-! ### The clock (R151) -/

/-- The ties of R151 between the preferred source, the reference, the lock state and the holdover form. -/
def Clock.Law (k : Clock) : Prop :=
  match k.ref with
  | .internal => k.lock = .locked ∧ k.preferred = .internal
  | .c1 | .c2 => k.preferred = .portC ∧ (k.lock = .holdover → k.form ≠ .wait)
  | .external => k.preferred = .external ∧ (k.lock = .holdover → k.form ≠ .wait)
  | .nothing => k.lock = .holdover ∧ k.form = .wait

/-- Every law at once. -/
def State.Safe (s : State) : Prop := s.LevelLaw ∧ s.OwnerLaw ∧ s.ex.StoreLaw ∧ s.ex.WalkLaw ∧ s.clock.Law

/-! ### The take of a request (R170, R171) -/

/-- A walk stands at the end of the chain with no record in hand, so that it takes the record that h places, in an exchange
that is enabled, meets its laws and has no clear waiting. -/
def State.Ready (s : State) (h : ReqHead) : Prop :=
  s.ex.atTail = true ∧ h.wf = true ∧ s.ex.enable = true ∧ s.ex.clearAsked = false ∧ s.ex.WalkLaw

/-- Every byte outside the record that h places and outside the next field it is linked by reads as before. -/
def Exchange.SameElsewhere (x : Exchange) (h : ReqHead) (y : Exchange) : Prop :=
  ∀ a, (a < h.off.toNat ∨ h.off.toNat + 64 ≤ a) → (a < x.tail + 8 ∨ x.tail + 12 ≤ a) →
    readByte y.mem a = readByte x.mem a

/-- The tag, channel, feed and next fields of the record that h places stand as the controller wrote them, but for the next
field where the chain is linked by that very record (R171, R172). -/
def Exchange.HeaderStands (x : Exchange) (h : ReqHead) (y : Exchange) : Prop :=
  ∀ i a, i < 12 → a = h.off.toNat + 4 + i → (a < x.tail + 8 ∨ x.tail + 12 ≤ a) →
    readByte y.mem a = ([h.tag.setWidth 8, (h.tag >>> 8).setWidth 8, h.channel, h.feed] ++ List.replicate 8 0#8).getD i 0#8

/-- From x to y the outcome of the record at an offset was stored: the four bytes of its status word and its reply, and
every other byte of memory reads as before (R171). -/
def Exchange.StoresOutcome (x : Exchange) (off : Nat) (y : Exchange) : Prop :=
  ∀ a, (a < off ∨ off + 4 ≤ a) → (a < off + 0x20 ∨ off + 0x40 ≤ a) → readByte y.mem a = readByte x.mem a

/-- From x to y a record was taken and completed: the cursor moved to it, its header word holds DONE, the kind and source as
read and the result, its reply holds what its rule writes, or is as the controller left it, and nothing else changed but
memory inside the record and its link. -/
def Exchange.Took (x : Exchange) (h : ReqHead) (kind : Byte) (r : Result) (reply : Option (List Byte)) (y : Exchange) :
    Prop :=
  y = { x with cursor := h.off.toNat, mem := y.mem } ∧
    readBytes y.mem h.off.toNat 4 = [2#8, kind, h.source, r.code] ∧
    readBytes y.mem (h.off.toNat + 0x20) 32 =
      (match reply with
       | some bs => padTo 32 bs
       | none => readBytes x.mem (h.off.toNat + 0x20) 32) ∧
    x.HeaderStands h y ∧ x.SameElsewhere h y

/-- From x to y a record was taken and stays in hand until its first new sample: its reply is not written yet. -/
def Exchange.Kept (x : Exchange) (h : ReqHead) (kind : Byte) (r : Result) (reply : XpReply) (y : Exchange) : Prop :=
  y = { x with mem := y.mem, inHand := some { head := takeHead h kind, result := r, reply := reply, ready := none } } ∧
    readBytes y.mem h.off.toNat 4 = [1#8, kind, h.source, 0#8] ∧
    readBytes y.mem (h.off.toNat + 0x20) 32 = readBytes x.mem (h.off.toNat + 0x20) 32 ∧
    x.HeaderStands h y ∧ x.SameElsewhere h y

/-- The command completes: with the state u after the owning block's action, the outcome is written into the record. -/
def Served (i : Instr) (s u : State) (h : ReqHead) (kind : Byte) (r : Result) (reply : Option (List Byte)) : Prop :=
  ∃ t, exec i s = .next t ∧ t = { u with ex := t.ex } ∧ u.ex.Took h kind r reply t.ex

/-- The command completes its take: with the state u after the owning block's action, the record waits in hand for its
first new sample. -/
def Waits (i : Instr) (s u : State) (h : ReqHead) (kind : Byte) (r : Result) (reply : XpReply) : Prop :=
  ∃ t, exec i s = .next t ∧ t = { u with ex := t.ex } ∧ u.ex.Kept h kind r reply t.ex

/-! ### What an operation may become (R69, R78) -/

/-- The settle check of R78: an operation short of its target begins the next wait for a crossing; one at its target is
closed, with one event if it was open, GAIN_DONE, or GAIN_CANCELLED where a cancel note is held. -/
def Chan.SettlesTo (c : ChanId) (before after : Chan) (es : List Event) : Prop :=
  (before.tgt ≠ before.ack → after = { before with op := .zcWait, window := 480, fresh := true } ∧ es = []) ∧
  (before.tgt = before.ack →
    after = { before with op := .idle, opened := false, urgent := false, note := none } ∧
    (before.opened = false → es = []) ∧
    (before.opened = true → before.note = none →
      es = [.gainDone c before.ack before.level before.tag before.forced before.superseded]) ∧
    ∀ n, before.opened = true → before.note = some n →
      es = [.gainCancelled c n before.ack before.ackPhantom before.level])

/-- A crosspoint when the applied level goes from one value to another: a settled one keeps its record, and the level
becomes the cause of its flag where its raw gain crosses a clamp bound (R69), unless a swap has come before (R124); the
reference of a TRACK, or the trim of a fold, that no sample has used yet is taken again from the new level (R51, R52; log
entry 7). -/
def Xp.AtLevel (x : Xp) (old new : Int) (y : Xp) : Prop :=
  (old = new → y = x) ∧
  (old ≠ new →
    (x.continuity = .settled →
      y = { x with cause := if x.cause = .scene ∨ outOfRange (x.raw old) = outOfRange (x.raw new) then x.cause else .level }) ∧
    (∀ r, x.continuity = .entered → x.mode = .track r → y = { x with mode := .track new }) ∧
    ∀ trim ref, x.continuity = .folded trim ref → y = { x with trim := max (-240) (min 96 (trim + ref - new)) })

/-! ### Layouts (section 9.7) -/

/-- A number of n bytes, little-endian; a negative one in two's complement. -/
def little (n : Nat) (x : Int) : List Byte := (List.range n).map fun i => BitVec.ofInt 8 (x / 256 ^ i)

/-- A byte of flags, bit 0 first. -/
def flags (bs : List Bool) : Byte := BitVec.ofNat 8 (bs.foldr (fun b n => b.toNat + 2 * n) 0)

/-- A report block whole: the header and the body of R181, and zeros. -/
def reportBlock (kind : Byte) (unitId : Nat) (stamp : Word) (body : List Byte) : List Byte :=
  padTo 512 ([kind, u8 unitId] ++ little 2 (8 + body.length : Nat) ++ little 4 stamp.toNat ++ body)

/-- The body of a METER report (R181). -/
def meterBody (m : Snapshot) : List Byte :=
  (List.finRange 64).flatMap fun c : ChanId =>
    let e := m.entries[c]
    little 2 e.peak ++ [flags [e.clip, e.fault, e.guarded, e.suspect],
      flags [e.sat.a, e.sat.b, e.sat.c, e.sat.d, e.limited.a, e.limited.b, e.limited.c, e.limited.d]]

/-- The offset of the block that the next report takes (R181, R185). -/
def Exchange.nextOffset (x : Exchange) : Nat := 0x10000 + 512 * ((x.oldest + x.filled) % x.count)

/-- From x to y one report was written into the next block, and every other byte reads as before (R185, R186). -/
def Exchange.Reports (x : Exchange) (bytes : List Byte) (y : Exchange) : Prop :=
  readBytes y.mem x.nextOffset 512 = bytes ∧
    ∀ a, a < x.nextOffset ∨ x.nextOffset + 512 ≤ a → readByte y.mem a = readByte x.mem a

end Sys2Proof.Machine
end

