-- ==== Sys2Proof/Certificates/Slice0/Obligations.lean ====
section
/-! DEFINITION. The statements for the provers. Each docstring says which rules of the manual a statement formalises. -/

open Sys2Proof Sys2Proof.Machine

/-! ### The whole part -/

/-- A step takes the command at the front of the queue and runs it on the state with the queue's rest. -/
def Obligations.StepRunsFrontCommand : Prop :=
  ∀ (c : Instr) (s : State) (rest : List Instr), step { s with pending := c :: rest } = exec c { s with pending := rest }

/-- No command but POWER_ON_RESET and SAMPLE_PERIOD moves the frame counter, SAMPLE_PERIOD raises it by one whatever the
clock does, and no command touches the commands that wait (section 8.2; the queue is the model's own, log entry 3). -/
def Obligations.OnlySamplePeriodsCount : Prop :=
  ∀ (c : Instr) (s t : State), exec c s = .next t →
    t.pending = s.pending ∧
      t.frame = match c with
        | .powerOnReset => 0#32
        | .samplePeriod => s.frame + 1#32
        | _ => s.frame

/-- Every step keeps every analog code, pad, trim and reference in its set (the laws of R3, R4 and R5). -/
def Obligations.LevelsStayLegal : Prop :=
  ∀ (s t : State), s.LevelLaw → step s = .next t → t.LevelLaw

/-- Every step keeps the law of R53: OWNER mode exactly at the owner's crosspoint, and an owner is an enabled feed. -/
def Obligations.OwnersStayLawful : Prop :=
  ∀ (s t : State), s.OwnerLaw → step s = .next t → t.OwnerLaw

/-- Every step keeps the queue within 32 events and the store within its block count (the laws of R185 and R187). -/
def Obligations.StoreStaysBounded : Prop :=
  ∀ (s t : State), s.ex.StoreLaw → step s = .next t → t.ex.StoreLaw

/-- Every step keeps the cursor at the anchor or at a record of the request window (the law of R168), and the exchange
memory in its canonical form. -/
def Obligations.CursorStaysInWindow : Prop :=
  ∀ (s t : State), s.ex.WalkLaw → step s = .next t → t.ex.WalkLaw

/-- Every step keeps the ties of R151 between preferred source, reference, lock state and holdover form. -/
def Obligations.ClockStaysTied : Prop :=
  ∀ (s t : State), s.clock.Law → step s = .next t → t.clock.Law

/-- The part right after power-on meets every law that the statements above keep. -/
def Obligations.ResetIsSafe : Prop := State.reset.Safe

/-- POWER_ON_RESET puts every block's state at the power-on value the manual states, whatever stood before (R26, R36, R46,
R49, R65, R70, R97, R99, R104, R115, R131, R151, R164 to R168, R177, R178, R185, R187, R190). Frame 0 raises a block
boundary, whose work every block owes (R152, R153). How what is owed is kept is log entry 26, that the held rate counts
millihertz log entry 5. -/
def Obligations.PowerOnValues : Prop :=
  ∀ s : State, ∃ t, exec .powerOnReset s = .next t ∧
    t.frame = 0#32 ∧ t.owed = [.meterGuard, .preampLine, .sceneStore, .feedPorts, .clock, .exchange] ∧
    t.line = none ∧ t.senior = none ∧
    (∀ g : LaneId, t.lanes[g].fault = true ∧ t.lanes[g].run = 0) ∧
    (∀ b : BoardId, t.board b = { offline := false, failures := 0, request := .asking, countdown := 0 }) ∧
    (t.arb.urgentPtr = 0 ∧ t.arb.ordinaryPtr = 0 ∧ t.arb.fairness = 0) ∧
    (∀ c f, (t.xp c f).mode = .follow ∧ (t.xp c f).trim = 0 ∧ (t.xp c f).mute = false ∧ (t.xp c f).invert = false ∧
      (t.xp c f).limited = false ∧ (t.xp c f).satSeen = false) ∧
    (∀ c, (t.chan c).ack = { analog := 0, padIn := false } ∧ (t.chan c).ackPhantom = false ∧
      (t.chan c).app = { analog := 0, padIn := false } ∧ (t.chan c).level = 0 ∧
      (t.chan c).tgt = { analog := 0, padIn := false } ∧ (t.chan c).phantomTgt = false ∧
      (t.chan c).owner = none ∧ (t.chan c).op = .suspect ∧ (t.chan c).opened = false ∧ (t.chan c).tag = none ∧
      (t.chan c).superseded = 0 ∧ (t.chan c).forced = 0 ∧ (t.chan c).urgent = false ∧ (t.chan c).note = none ∧
      (t.chan c).window = 0 ∧ (t.chan c).lastNeg = false ∧ (t.chan c).carried = .nothing ∧ (t.chan c).resume = .idle ∧
      (t.chan c).lastSent = none ∧ (t.chan c).pend = [] ∧ (t.chan c).startup = true ∧ (t.chan c).tgtSet = false ∧
      (t.chan c).phantomTgtSet = false ∧ (t.chan c).phantom = .off ∧ (t.chan c).ramp = 0) ∧
    (∀ f, t.feedOn.get f = false) ∧ (∀ (f : Feed) (i : SlotId), (t.slots.get f)[i] = some i) ∧
    (∀ c : ChanId, t.blocks[c] = { peak := 0, clip := false, fault := false, suspect := false } ∧
      t.intervals[c] = { peak := 0, clip := false, fault := false, guarded := false, suspect := false }) ∧
    (∀ c, t.guard c = ⟨false, 32767, 4, 0, 200, 0, 0, false⟩) ∧
    (t.scenes.mask = 0#64 ∧ t.scenes.loaded = 0#64 ∧ t.scenes.tag = none) ∧
    (∀ c : ChanId, t.scenes.shadow[c].target = { analog := 0, padIn := false } ∧ t.scenes.shadow[c].owner = none ∧
      ∀ f, t.scenes.shadow[c].feeds.get f = { track := false, trim := 0, mute := false, invert := false }) ∧
    (∀ p, (t.port p).state = .off ∧ (t.port p).validRun = 0 ∧ (t.port p).invalidRun = 0 ∧ (t.port p).window = [] ∧
      (t.port p).cleanRun = 0 ∧ (t.port p).lastSeq = none ∧ (t.port p).latest = none ∧ (t.port p).judging = false ∧
      t.portOut.get p = none) ∧
    (t.clock.preferred = .internal ∧ t.clock.ref = .internal ∧ t.clock.lock = .locked ∧ t.clock.form = .wait ∧
      t.clock.inRun = 0 ∧ t.clock.outRun = 0 ∧ t.clock.acq = 0 ∧ t.clock.retry = 0 ∧ t.clock.heldRate = 48000000 ∧
      t.clock.extFit = false) ∧
    (t.ex.readReg .ident = 0x06400001#32 ∧ t.ex.enable = false ∧ t.ex.count = 64 ∧ t.ex.notice = 0#5 ∧ t.ex.mask = 0#5 ∧
      t.ex.cursor = 0x40 ∧ t.ex.walking = false ∧ t.ex.inHand = none ∧ t.ex.again = false ∧ t.ex.pollCountdown = 0 ∧
      t.ex.pollInterval = 5 ∧ t.ex.meterInterval = 50 ∧ t.ex.meterCountdown = 50 ∧ t.ex.threshold = 0 ∧
      t.ex.unitId = 0 ∧ t.ex.filled = 0 ∧ t.ex.oldest = 0 ∧ t.ex.queue = [] ∧ t.ex.lost = 0 ∧ t.ex.firstLost = none ∧
      t.ex.lastLost = none ∧ t.ex.held = none) ∧
    (∀ a, a < 0x40 → t.readMem a = ([0x40#8, 0x06#8, 0x01#8, 0#8, 0x40#8] : List Byte).getD a 0#8) ∧
    ∀ a, 0x40 ≤ a → t.readMem a = 0#8

/-! ### The gain arithmetic (Chapter 1) -/

/-- The raw gain by mode, its ranges, and how it depends on the applied level (R6); and the heard level: R + T for a TRACK
crosspoint that is not limited, off from it by what the clamp removed for one that is, and L_app + T in the other modes
(R8). The last two clauses take the sign from R8's formula, which its words contradict: that is the model's reading, log
entry 29. -/
def Obligations.RawGainAndHeardLevel : Prop :=
  ∀ (x : Xp) (lapp : Int),
    x.heard lapp = lapp + x.gain lapp ∧
    ((x.mode = .owner ∨ x.mode = .follow) → x.raw lapp = x.trim ∧
      (legalTrim x.trim → -240 ≤ x.raw lapp ∧ x.raw lapp ≤ 96 ∧ x.heard lapp = lapp + x.trim)) ∧
    ∀ r, x.mode = .track r →
      x.raw lapp = x.trim + r - lapp ∧ (∀ n, x.raw (lapp + n) = x.raw lapp - n) ∧
      (legalTrim x.trim → legalLevel r → legalLevel lapp → -560 ≤ x.raw lapp ∧ x.raw lapp ≤ 416) ∧
      (outOfRange (x.raw lapp) = false → x.heard lapp = r + x.trim) ∧
      x.trim + r - x.heard lapp = (x.trim + r - lapp) - x.gain lapp ∧
      (96 < x.raw lapp → x.heard lapp < r + x.trim) ∧ (x.raw lapp < -240 → r + x.trim < x.heard lapp)

/-- Unity gain is transparent, a gain of whole doublings multiplies exactly, a cut of whole doublings divides and rounds
halves up, and a FOLLOW crosspoint with trim 0 delivers the converter sample (R20). -/
def Obligations.UnityGainIsTransparent : Prop :=
  ∀ x : Int, minSample ≤ x → x ≤ maxSample →
    stageE 0 = 0 ∧ stageK 0 = 0 ∧ stageShift 0 = 15 ∧ stageScale x 0 = x ∧ sampleOut x 0 false false = (x, false) ∧
    (∀ e : Nat, e ≤ 4 → stageScale x (24 * e) = x * 2 ^ e ∧
      (minSample ≤ x * 2 ^ e → x * 2 ^ e ≤ maxSample → stageSaturate (stageScale x (24 * e)) = (x * 2 ^ e, false)) ∧
      (maxSample < x * 2 ^ e → stageSaturate (stageScale x (24 * e)) = (maxSample, true)) ∧
      (x * 2 ^ e < minSample → stageSaturate (stageScale x (24 * e)) = (minSample, true))) ∧
    (∀ n : Nat, 1 ≤ n → n ≤ 10 → stageScale x (-(24 * n)) = (2 * x + 2 ^ n) / 2 ^ (n + 1)) ∧
    ∀ (y : Xp) (lapp : Int), y.mode = .follow → y.trim = 0 → y.invert = false →
      sampleOut x (y.gain lapp) y.invert false = (x, false)

/-- SAMPLE_PERIOD computes 256 outputs in the sample range, 0 for a muted crosspoint, a ramping channel and a channel with
the start-up flag; every limited flag stands as its raw gain says; each running port sends the outputs its slot map names,
no other port sends, and C1 and C2 send equal frames; the frame counter has risen by one, and the work of a block boundary
is owed, by all six blocks, exactly where its new value is a multiple of 48 (the laws of R7, R19 and R152, with R132, R133,
R136, R153). A lane that has received no frame in the period is judged as having a bad one: it is in FAULT with a run of 0
and delivers zeros, whose outputs are 0 (R22 to R24; log entry 11); one that was judged keeps its record and delivers what
was judged. What is owed, and the marks of judged lanes, are fields of the model, log entries 6 and 26. The crosspoints are
read after the period, so the clauses on mute and flag leave out a channel whose swap was left to SAMPLE_PERIOD, which
changes them after the sample (R9, log entry 6). When a frame begins within a period is log entry 34. -/
def Obligations.SamplePeriodOutputs : Prop :=
  ∀ s : State, ∃ t, exec .samplePeriod s = .next t ∧ t.frame = s.frame + 1#32 ∧
    t.owed = (if (s.frame + 1#32).toNat % 48 = 0 then
      [.meterGuard, .preampLine, .sceneStore, .feedPorts, .clock, .exchange] else []) ∧
    (∀ g : LaneId,
      (s.lanes[g].judged = true → t.lanes[g] = { s.lanes[g] with judged := false }) ∧
      (s.lanes[g].judged = false → t.lanes[g] = { fault := true, run := 0, judged := false })) ∧
    (∀ c : ChanId, t.samples[c] = if s.lanes[boardOf c].judged = true then s.samples[c] else 0) ∧
    (∀ (c : ChanId) (f : Feed),
      minSample ≤ t.outputs[c].get f ∧ t.outputs[c].get f ≤ maxSample ∧
      ((t.chan c).rampMute = true ∨ (t.chan c).startup = true ∨ s.lanes[boardOf c].judged = false →
        t.outputs[c].get f = 0) ∧
      (s.owed.contains .sceneStore = false ∨ (s.scenes.mask &&& s.scenes.loaded).getLsbD c.val = false →
        ((t.xp c f).mute = true → t.outputs[c].get f = 0) ∧
        (t.xp c f).limited = outOfRange ((t.xp c f).raw (t.chan c).level))) ∧
    (∀ p, match t.portOut.get p with
      | none => (t.port p).state = .off
      | some fr => (t.port p).state ≠ .off ∧ ∀ i : SlotId, fr.slots[i] =
          match (t.slots.get (portFeed p))[i] with
          | none => 0
          | some c => t.outputs[c].get (portFeed p)) ∧
    ((t.port .c1).state ≠ .off → (t.port .c2).state ≠ .off → t.portOut.c1 = t.portOut.c2)

/-- In a period in which nothing is due before the sample, SAMPLE_PERIOD delivers the judged samples, and zeros from a lane
whose frame is missing, which is then in FAULT (R22, R23); it computes each output from the delivered sample by the six
stages, the gain split by 24 with a floor, the table, the rounding, the bounds, the invert and the mute, and from the
settings that stand (R9, R11 to R17); each running port's control word shows the slot of the sample and its channel (R134,
R135, R183); the sample is the first of the new block where the boundary's work was left to SAMPLE_PERIOD (R97, R98); a
saturation of that sample enters the snapshot of a meter interval that then closes, which is held or written, and otherwise
stays marked (R18, R101, R190); each ramp count and the window of a transaction in flight run, the latter up by one (R35),
and each watch where no boundary work retargets, the sample of the period of entry not being examined (R73, R91; log entry
12); and where no boundary work is left, each limited flag that changes hands over one LIMIT event with its cause, raw gain
and gain, in order, after one INPUT event for each lane that goes to FAULT, and nothing else joins (R10, R24, R69). What is
due and which frames are judged are read as log entries 6 and 11 say; that flags which change from different causes stand in
the one order, after the INPUT events, is log entry 15. The operation state that marks a block SUSPECT is the one at the end
of the period, log entry 40; the control word is that of the frame which stands in portOut after the period, built right
after its sample, log entry 34. That an answer, like a take, comes before the sample of its period is log entry 39, that all
these events join before any report is written log entry 43. -/
def Obligations.SamplePeriodWatches : Prop :=
  ∀ (s : State) (closes : Bool) (delivered : ChanId → Int) (faulted : LaneId → Bool), s.calmBefore = true →
    closes = decide (s.ex.meterCountdown ≤ if s.owed.contains .exchange then 1 else 0) →
    (∀ c, delivered c = if s.lanes[boardOf c].judged = true then s.samples[c] else 0) →
    (∀ g, faulted g = true ↔ s.lanes[g].fault = true ∨ s.lanes[g].judged = false) →
    ∃ (t : State) (m : Snapshot), exec .samplePeriod s = .next t ∧
      (∀ (c : ChanId) (f : Feed) (x : Xp) (g e k p y1 y2 y3 : Int) (n : Nat) (sat : Bool), x = s.xp c f →
        g = max (-240) (min 96 (x.raw (s.chan c).level)) → g = 24 * e + k → 0 ≤ k → k < 24 → (n : Int) = 15 - e →
        p = delivered c * ([32768, 33728, 34716, 35734, 36781, 37859, 38968, 40110, 41285, 42495, 43740, 45022, 46341,
          47699, 49097, 50535, 52016, 53540, 55109, 56724, 58386, 60097, 61858, 63670] : List Int).getD k.toNat 0 →
        2 ^ n * y1 ≤ p + 2 ^ (n - 1) → p + 2 ^ (n - 1) < 2 ^ n * (y1 + 1) → y2 = max (-8388608) (min 8388607 y1) →
        y3 = (if x.invert = true then (if y2 = -8388608 then 8388607 else -y2) else y2) →
        (sat = true ↔ y1 ≠ y2 ∨ (x.invert = true ∧ y2 = -8388608)) →
        t.outputs[c].get f = (if x.mute = true ∨ (s.chan c).phantom = .rampUp ∨ (s.chan c).phantom = .rampDown ∨
          (s.chan c).startup = true then 0 else y3) ∧
        (t.xp c f).satSeen = (!closes && (x.satSeen || sat)) ∧
        (closes = true → x.satSeen = true ∨ sat = true → m.entries[c].sat.get f = true)) ∧
      (closes = true → Memory.wf s.ex.mem → m.stamp = s.frame ∧
        ((t.ex.held = some m ∧ t.ex.filled = s.ex.filled ∧ t.ex.mem = s.ex.mem) ∨
          (s.ex.enable = true ∧ s.ex.filled < s.ex.count ∧ s.ex.held = none ∧ t.ex.held = none ∧
            t.ex.filled = s.ex.filled + 1 ∧ s.ex.Reports (reportBlock 15#8 s.ex.unitId m.stamp (meterBody m)) t.ex))) ∧
      (∀ p fr, t.portOut.get p = some fr → ∀ i : SlotId, i.val = s.frame.toNat % 64 →
        fr.control.extractLsb' 29 3 = BitVec.ofNat 3 s.ex.unitId ∧
        (fr.control.getLsbD 28 = true ↔ s.frame.toNat % 48 = 0) ∧ (fr.control.extractLsb' 22 6).toNat = i.val ∧
        match (s.slots.get (portFeed p))[i] with
        | none => fr.control.extractLsb' 19 3 = 7#3 ∧ fr.control.extractLsb' 0 19 = 0#19
        | some c =>
          fr.control.extractLsb' 19 3 =
            (match (s.chan c).owner with
             | none => 0#3
             | some .a => 1#3
             | some .b => 2#3
             | some .c => 3#3
             | some .d => 4#3) ∧
          (fr.control.extractLsb' 13 6).toNat = c.val ∧
          fr.control.extractLsb' 7 6 = BitVec.ofInt 6 ((s.chan c).app.analog / 6) ∧
          fr.control.getLsbD 6 = (s.chan c).app.padIn ∧
          fr.control.extractLsb' 3 3 =
            (match (s.chan c).phantom with
             | .off => 0#3
             | .rampUp => 1#3
             | .on => 2#3
             | .rampDown => 3#3
             | .faulted => 4#3) ∧
          fr.control.getLsbD 2 = faulted (boardOf c) ∧ (fr.control.getLsbD 1 = true ↔ (s.chan c).op = .suspect) ∧
          fr.control.getLsbD 0 = (s.chan c).startup) ∧
      (∀ (c : ChanId) (b : BlockRecord),
        b = (if s.owed.contains .meterGuard then { peak := 0, clip := false, fault := false, suspect := false }
          else s.blocks[c]) →
        t.blocks[c] =
          { peak := max b.peak (delivered c).natAbs
            clip := b.clip || delivered c == 8388607 || delivered c == -8388608
            fault := b.fault || faulted (boardOf c)
            suspect := b.suspect || (s.chan c).op == .suspect }) ∧
      t.line = s.line.map (fun l => { l with window := l.window + 1 }) ∧
      (∀ c : ChanId, (t.chan c).lastNeg = decide (delivered c < 0) ∧
        (t.chan c).ramp = (s.chan c).ramp - (if (s.chan c).rampMute then 1 else 0) ∧
        (s.owed.contains .meterGuard = false → s.owed.contains .sceneStore = false →
          ((s.chan c).op ≠ .zcWait → (t.chan c).op = (s.chan c).op ∧ (t.chan c).window = (s.chan c).window) ∧
          ((s.chan c).op = .zcWait → (s.chan c).fresh = true →
            (t.chan c).op = .zcWait ∧ (t.chan c).window = (s.chan c).window) ∧
          ((s.chan c).op = .zcWait → (s.chan c).fresh = false → (s.chan c).window ≠ 0 →
            (delivered c = 0 ∨ decide (delivered c < 0) ≠ (s.chan c).lastNeg → (t.chan c).op = .lineWait) ∧
            (¬(delivered c = 0 ∨ decide (delivered c < 0) ≠ (s.chan c).lastNeg) →
              (t.chan c).op = .zcWait ∧ (t.chan c).window = (s.chan c).window - 1)))) ∧
      (s.calmAfter = true → t.ex = { s.ex.joinAll s.frame
          (((List.finRange 8).flatMap fun g : LaneId =>
            if s.lanes[g].judged = false ∧ s.lanes[g].fault = false then [.input g true] else []) ++
          (List.finRange 64).flatMap fun c => [Feed.a, .b, .c, .d].flatMap fun f =>
            let raw := (s.xp c f).raw (s.chan c).level
            if (decide (raw < -240) || decide (96 < raw)) = (s.xp c f).limited then []
            else [.limit c f (!(s.xp c f).limited) (s.xp c f).cause raw (max (-240) (min 96 raw)) (s.chan c).level])
        with inHand := t.ex.inHand })

/-! ### Converter lanes (section 2.1) -/

/-- A bad frame puts the lane in FAULT with a run of 0 and delivers zeros; only a lane that was IN_SYNC raises an INPUT
event, which is urgent (R24). -/
def Obligations.BadFrameFaultsLane : Prop :=
  ∀ (s : State) (g : LaneId) (f : LaneInput), s.lanes[g].judged = false → f = .framingError ∨ f = .missing →
    exec (.laneFrame g f) s = .next { s with
      lanes := upd s.lanes g { fault := true, run := 0, judged := true }
      samples := tab fun c => if boardOf c = g then 0 else s.samples[c]
      ex := if s.lanes[g].fault then s.ex else s.ex.join ⟨s.frame, .input g true⟩ } ∧
    (Event.input g true).urgent = true

/-- A good frame on a faulted lane raises the run and delivers zeros until the sixteenth, which returns the lane to IN_SYNC,
is delivered as received and raises an urgent INPUT event; on a lane IN_SYNC a good frame is delivered and changes nothing
else (R25). -/
def Obligations.GoodFrameRecoversLane : Prop :=
  ∀ (s : State) (g : LaneId) (v : Vector (BitVec 24) 8), s.lanes[g].judged = false →
    (s.lanes[g].fault = false →
      exec (.laneFrame g (.good v)) s = .next { s with
        lanes := upd s.lanes g { s.lanes[g] with judged := true }
        samples := tab fun c => if boardOf c = g then v[placeOf c].toInt else s.samples[c] }) ∧
    (s.lanes[g].fault = true → s.lanes[g].run + 1 < 16 →
      exec (.laneFrame g (.good v)) s = .next { s with
        lanes := upd s.lanes g { fault := true, run := s.lanes[g].run + 1, judged := true }
        samples := tab fun c => if boardOf c = g then 0 else s.samples[c] }) ∧
    (s.lanes[g].fault = true → s.lanes[g].run + 1 = 16 →
      exec (.laneFrame g (.good v)) s = .next { s with
        lanes := upd s.lanes g { fault := false, run := 0, judged := true }
        samples := tab fun c => if boardOf c = g then v[placeOf c].toInt else s.samples[c]
        ex := s.ex.join ⟨s.frame, .input g false⟩ }) ∧
    (Event.input g false).urgent = true

/-! ### The preamp line and the arbiter (sections 2.2 to 2.6) -/

/-- The characters of a STEP are sound, carry the board, the command and the channel within the board, and give back the
state they carry when read as an answer is read (R28, R30, R32, R184). -/
def Obligations.StepCharactersCarryState : Prop :=
  ∀ (c : ChanId) (sent : SentState), sent.setting.legal →
    ∃ a d e, stepChars c sent = [a, d, e] ∧
      (∀ ch ∈ stepChars c sent, ch.stop = true ∧ evenParity ch = true ∧ (charBits ch).length = 12) ∧
      a.address = true ∧ d.address = false ∧ e.address = false ∧
      a.data.toNat = (boardOf c).val * 16 + 1 ∧ d.data.toNat % 8 = (placeOf c).val ∧
      pairState d.data e.data = sent ∧ pairFault d.data = false ∧ charError (.step c sent) 0 d = none ∧
      charError (.step c sent) 1 e = none

/-- A channel asks in LINE_WAIT, or for a phantom change outside ACK_WAIT and SUSPECT, and a board while its request is
ASKING; a channel in LINE_WAIT with the urgent mark is URGENT and every other requester ORDINARY (R42, R88). A decision is
made where some requester asks, and considers only those that ask (R43). It takes its class by the fairness count, the
class's first considered requester from the class's pointer on with wrap-around, and then moves that pointer and the count
(R44, R45). Which of the asking requesters a decision considers is log entry 8. -/
def Obligations.DecisionIsFair : Prop :=
  ∀ (s : State) (first : ReqId) (asks marked considered : ReqId → Prop),
    (∀ q, asks q ↔
      (∃ c : ChanId, q.val = c.val ∧ ((s.chan c).op = .lineWait ∨
        ((s.chan c).phantomTgt ≠ (s.chan c).ackPhantom ∧ (s.chan c).op ≠ .ackWait ∧ (s.chan c).op ≠ .suspect))) ∨
      ∃ b : BoardId, q.val = 64 + b.val ∧ (s.board b).request = .asking) →
    (∀ q, marked q ↔ ∃ c : ChanId, q.val = c.val ∧ (s.chan c).op = .lineWait ∧ (s.chan c).urgent = true) →
    (∀ q, considered q ↔ asks q ∧ (s.arb.together = true ∨ ¬asks first ∨ q = first)) →
    (s.choose (some first) = none ↔ ∀ q, ¬asks q) ∧
    ∀ (r : ReqId) (urgent o : Bool), s.choose (some first) = some (r, urgent, o) →
      considered r ∧ (marked r ↔ urgent = true) ∧
      (o = true ↔ ∃ q, considered q ∧ ¬marked q) ∧
      (s.arb.fairness = 4 → o = true → urgent = false) ∧
      (¬(s.arb.fairness = 4 ∧ o = true) → (urgent = true ↔ ∃ q, considered q ∧ marked q)) ∧
      (∀ q, considered q → (marked q ↔ urgent = true) →
        (r.val + 72 - (if urgent then s.arb.urgentPtr else s.arb.ordinaryPtr).val) % 72 ≤
          (q.val + 72 - (if urgent then s.arb.urgentPtr else s.arb.ordinaryPtr).val) % 72) ∧
      (s.arb.afterGrant r urgent o).urgentPtr.val = (if urgent then (r.val + 1) % 72 else s.arb.urgentPtr.val) ∧
      (s.arb.afterGrant r urgent o).ordinaryPtr.val = (if urgent then s.arb.ordinaryPtr.val else (r.val + 1) % 72) ∧
      (s.arb.afterGrant r urgent o).fairness = (if urgent && o then s.arb.fairness + 1 else 0)

/-- A grant to a channel in LINE_WAIT commands one step decided from its target at that moment, the pad before the analog
code, with the phantom target; one to a channel outside LINE_WAIT sends its acknowledged setting with the phantom target and
records where the operation stood; one to a board starts its readback with its one address character, 16 times the board's
number plus 2 (R30, R31, R32, R34, R39, R75, R89). -/
def Obligations.GrantStartsTransaction : Prop :=
  ∀ (s : State) (first r : ReqId) (urgent o : Bool), s.line = none → s.choose (some first) = some (r, urgent, o) →
    (∀ c, requesterOf r = .inl c → ∀ (carried : CarriedStep) (sent : Setting) (resume : ResumeState),
      (((s.chan c).op = .lineWait ∧ resume = .idle ∧
          (((s.chan c).tgt.padIn ≠ (s.chan c).ack.padIn ∧ carried = .pad ∧
              sent = { (s.chan c).ack with padIn := (s.chan c).tgt.padIn }) ∨
            ((s.chan c).tgt.padIn = (s.chan c).ack.padIn ∧ (s.chan c).ack.analog < (s.chan c).tgt.analog ∧ carried = .up ∧
              sent = { (s.chan c).ack with analog := (s.chan c).ack.analog + 6 }) ∨
            ((s.chan c).tgt.padIn = (s.chan c).ack.padIn ∧ (s.chan c).tgt.analog < (s.chan c).ack.analog ∧
              carried = .down ∧ sent = { (s.chan c).ack with analog := (s.chan c).ack.analog - 6 }))) ∨
        (carried = .nothing ∧ sent = (s.chan c).ack ∧
          (((s.chan c).op = .idle ∧ resume = .idle) ∨ ((s.chan c).op = .zcWait ∧ resume = .zcWait) ∨
            ((s.chan c).op = .settling ∧ resume = .settling)))) →
      exec (.arbiterDecision first) s = .next { s with
        chans := upd s.chans c { s.chan c with
          op := .ackWait, carried := carried, resume := resume
          lastSent := some ⟨⟨sent, (s.chan c).phantomTgt⟩, false⟩ }
        line := some ⟨.step c ⟨sent, (s.chan c).phantomTgt⟩, boardOf c, [], none, 0⟩
        lineOut := stepChars c ⟨sent, (s.chan c).phantomTgt⟩
        arb := s.arb.afterGrant r urgent o }) ∧
    (∀ b, requesterOf r = .inr b → ∃ a : LineChar,
      a.data.toNat = b.val * 16 + 2 ∧ a.address = true ∧ a.stop = true ∧ evenParity a = true ∧
      exec (.arbiterDecision first) s = .next { s with
        boards := upd s.boards b { s.board b with request := .idle }
        line := some ⟨.readback, b, [], none, 0⟩
        lineOut := [a]
        arb := s.arb.afterGrant r urgent o })

/-- A character on an IDLE line is discarded; one on a BUSY line that is not the last expected is counted, and the error of
the earliest faulty one is kept (R29, R35): FRAMING for a bad stop bit, CHECK for an odd number of 1 bits, and CHECK for a
sound one that is an address character, echoes another channel than the STEP's, or its pair's in a READBACK, or holds a
position above 40 (R33, R34). That a character counts until the expiry of the window is taken is log entry 44. -/
def Obligations.AnswerCharacterIsCounted : Prop :=
  ∀ (s : State) (ch : LineChar),
    (s.line = none → exec (.answerCharacter ch) s = .next s) ∧
    ∀ (t : InFlight) (n ones : Nat) (place : Nat) (sound fits : Bool), s.line = some t → n = t.data.length →
      n + 1 < t.kind.expected → ones = (List.range 8).countP (fun i => ch.data.getLsbD i) →
      (sound = true ↔ (ones + ch.address.toNat + ch.check.toNat) % 2 = 0) →
      ((∃ c sent, t.kind = .step c sent ∧ place = c.val % 8) ∨ (t.kind = .readback ∧ place = n / 2)) →
      (fits = true ↔ ch.address = false ∧ (n % 2 = 0 → ch.data.toNat % 8 = place) ∧
        (n % 2 = 1 → ch.data.toNat % 64 ≤ 40)) →
      exec (.answerCharacter ch) s = .next { s with
        line := some { t with
          data := t.data ++ [ch.data]
          firstError := match t.firstError with
            | some e => some e
            | none => if ch.stop = false then some .framing else if sound = true ∧ fits = true then none else some .check } }

/-- The last character of a good STEP answer (R38, R76). The phantom first: a fault flag that is on makes the supply
FAULTED, once with an event (R92), a change of the held phantom starts or restarts the ramp of 14,400 periods (R90), and
otherwise it stands. Then the setting: one that changed is acknowledged at once and joins the pending applications due 40
periods on (R77). A held state that differs from the sent one raises MISMATCH, but not under a fault (R87; log entry 14).
The channel then waits for what is pending, or resumes: the settle check after a carried step (R78), the state a phantom
change interrupted (R89). The board's failure count is 0 and the line is free. That a window or a ramp which has run out
still stands until its step is log entry 44, that no second such answer falls in the period log entry 45. -/
def Obligations.GoodAnswerConfirmsStep : Prop :=
  ∀ (s : State) (ch : LineChar) (t : InFlight) (c : ChanId) (sent held : SentState) (d : Byte) (o x : Chan)
      (supply mismatch : List Event),
    s.line = some t → t.kind = .step c sent → t.data = [d] → t.firstError = none → charError t.kind 1 ch = none →
    pairState d ch.data = held → o = s.chan c →
    ((pairFault d = true ∧ x = { o with phantom := .faulted, ramp := 0, phantomTgt := false, ackPhantom := false } ∧
        supply = if o.phantom = .faulted then [] else [.phantom c .faulted true o.ack]) ∨
      (pairFault d = false ∧ held.phantom = o.ackPhantom ∧ x = o ∧ supply = []) ∨
      (pairFault d = false ∧ held.phantom ≠ o.ackPhantom ∧ supply = [] ∧
        x = { o with ackPhantom := held.phantom, ramp := 14400,
                     phantom := if held.phantom = true then .rampUp else .rampDown })) →
    mismatch = (if pairFault d = true ∨ sent = held then []
      else [.mismatch c .stepAnswer sent held false false false]) →
    ∃ (u : State) (y : Chan) (es : List Event), exec (.answerCharacter ch) s = .next u ∧
      u = { s with
        chans := upd s.chans c y
        boards := upd s.boards (boardOf c) { s.board (boardOf c) with failures := 0 }
        line := none
        arb := { s.arb with together := u.arb.together }
        ex := s.ex.joinAll s.frame (supply ++ mismatch ++ es) } ∧
      (held.setting ≠ o.ack → es = [] ∧
        y = { x with
          ack := held.setting, op := .settling
          pend := o.pend ++ [{ setting := held.setting, due := s.frame + 40#32 }] }) ∧
      (held.setting = o.ack → o.pend ≠ [] → es = [] ∧ y = { x with op := .settling }) ∧
      (held.setting = o.ack → o.pend = [] →
        (o.carried ≠ .nothing ∨ o.resume = .settling → x.SettlesTo c y es) ∧
        (o.carried = .nothing → o.resume = .zcWait ∨ (o.resume = .idle ∧ o.tgt ≠ o.ack) →
          es = [] ∧ y = { x with op := .zcWait, window := 480, fresh := true }) ∧
        (o.carried = .nothing → o.resume = .idle → o.tgt = o.ack → es = [] ∧ y = { x with op := .idle }))

/-- The sixteenth character of a good READBACK answer (R34, R38): the board's failure count is 0 and it is ONLINE, with a
PREAMP event after all others if it was OFFLINE; its eight channels take their states in channel order, and no other channel
is touched. A channel that is not SUSPECT and agrees is left alone, but for a fault flag (R84, R92). One that is SUSPECT or
disagrees takes the read setting as acknowledged and applied at once, with nothing pending, and a supply state settled at
once; it raises MISMATCH where a value differs; SUSPECT resumes by the settle check, and a disagreement does what its
operation state gives (R84, R85, R87). A start-up readback takes its targets from the board where none was set, ends the
start-up flag, raises no MISMATCH and goes on by the settle check (R86). What is compared where the fault flag is on, that
flag being read as phantom off, is log entry 14, how a crosspoint meets the new level log entry 7, the order in which a
start-up fault's event is formed, and that the events of one channel all precede those of the next, log entry 15. That all
these events join before any report is written is log entry 43. -/
def Obligations.ReadbackSettlesChannel : Prop :=
  ∀ (s : State) (ch : LineChar) (t : InFlight) (b : BoardId) (data : List Byte),
    s.line = some t → t.kind = .readback → t.board = b → t.firstError = none → t.data.length = 15 →
    charError .readback 15 ch = none → data = t.data ++ [ch.data] →
    ∃ (u : State) (evs : Fin 8 → List Event), exec (.answerCharacter ch) s = .next u ∧
      u = { s with
        chans := u.chans, xps := u.xps, line := none, arb := { s.arb with together := u.arb.together }
        boards := upd s.boards b { s.board b with failures := 0, offline := false }
        ex := s.ex.joinAll s.frame
          ((List.finRange 8).flatMap evs ++ if (s.board b).offline = true then [.preamp b .online] else []) } ∧
      (∀ c : ChanId, c.val / 8 ≠ b.val → u.chan c = s.chan c ∧ u.xps[c] = s.xps[c]) ∧
      ∀ (i : Fin 8) (c : ChanId) (read : SentState) (fault : Bool) (o : Chan) (found : SentState),
        c.val = 8 * b.val + i.val → read = pairState (data.getD (2 * i.val) 0#8) (data.getD (2 * i.val + 1) 0#8) →
        fault = pairFault (data.getD (2 * i.val) 0#8) → o = s.chan c →
        found = { read with phantom := read.phantom && !fault } →
        (∀ f, (s.xp c f).AtLevel o.level (u.chan c).level (u.xp c f)) ∧
        (o.startup = false → o.op ≠ .suspect → read.setting = o.ack → read.phantom = o.ackPhantom →
          (fault = false → u.chan c = o ∧ evs i = []) ∧
          (fault = true →
            u.chan c = { o with phantom := .faulted, ramp := 0, phantomTgt := false, ackPhantom := false } ∧
            evs i = if o.phantom = .faulted then [] else [.phantom c .faulted true o.ack])) ∧
        (o.startup = false → ¬(o.op ≠ .suspect ∧ read.setting = o.ack ∧ read.phantom = o.ackPhantom) →
          ∀ (was failed equal : Bool) (x : Chan) (es : List Event),
            was = decide (o.op = .suspect) →
            (failed = true ↔ was = true ∧ ∃ l, o.lastSent = some l ∧ l.failed = true) →
            (equal = true ↔ failed = true ∧ ∃ l, o.lastSent = some l ∧ l.sent = found) →
            x = { o with
              ack := found.setting, ackPhantom := found.phantom, app := found.setting, pend := [], lastSent := none
              phantom := if fault = true then .faulted
                else if found.phantom = o.ackPhantom then o.phantom else if found.phantom = true then .on else .off
              ramp := if fault = true ∨ found.phantom ≠ o.ackPhantom then 0 else o.ramp
              phantomTgt := if fault = true then false else o.phantomTgt } →
            es = (if fault = true ∧ o.phantom ≠ .faulted then [.phantom c .faulted true o.ack] else []) ++
              (if found.setting = o.ack ∧ (fault = true ∨ found.phantom = o.ackPhantom) then []
               else [.mismatch c .readback ⟨o.ack, o.ackPhantom && !fault⟩ found was failed equal]) →
            ∃ more, evs i = es ++ more ∧
              (o.op = .suspect ∨ o.op = .settling → x.SettlesTo c (u.chan c) more) ∧
              (o.op = .zcWait ∨ o.op = .lineWait →
                (o.tgt = found.setting → x.SettlesTo c (u.chan c) more) ∧
                (o.tgt ≠ found.setting → u.chan c = x ∧ more = [])) ∧
              (o.op = .idle → more = [] ∧ (o.tgt = found.setting → u.chan c = x) ∧
                (o.tgt ≠ found.setting → u.chan c = { x with
                  op := .zcWait, window := 480, fresh := true, opened := true, superseded := 0, forced := 0 })) ∧
              (o.op = .ackWait → u.chan c = x ∧ more = [])) ∧
        (o.startup = true → ∃ (x : Chan) (more : List Event), x.SettlesTo c (u.chan c) more ∧
          x = { o with
            ack := found.setting, ackPhantom := found.phantom, app := found.setting, pend := [], lastSent := none
            startup := false, ramp := 0
            tgt := if o.tgtSet = true then o.tgt else found.setting
            phantomTgt := if fault = true then false
              else if o.phantomTgtSet = true then o.phantomTgt else found.phantom
            phantom := if fault = true then .faulted else if found.phantom = true then .on else .off } ∧
          evs i = (if fault = true ∧ o.phantom ≠ .faulted then [.phantom c .faulted true found.setting] else []) ++ more)

/-- A transaction that ends in failure with its board short of the third failure in a row, or OFFLINE already: the failure
count rises by one, up to 3, and the board stays as it is (R37). The transaction ends so when its answer window runs out,
with TIMEOUT where no character was faulty, or when its last expected character arrives and that or an earlier one is faulty
(R35). A failed STEP makes its channel SUSPECT with its settings held, raises GAIN_CANCELLED where a cancel note is held,
and an urgent STEP_FAILED event that names the error, and the board asks for a readback (R37, R41, R82, R83). A failed
READBACK touches no channel and raises no event; its request, where none has come meanwhile, is DEFERRED for 100 blocks
(R37). That GAIN_CANCELLED clears the note is log entry 28. That the expiry is a step of its own, before which a character
still counts, is log entry 44. -/
def Obligations.WindowExpiryFailsStep : Prop :=
  ∀ (s : State) (t : InFlight) (i : Instr) (err : LineError) (b : BoardId) (n : Nat), s.line = some t → t.board = b →
    (s.board b).failures < 2 ∨ (s.board b).offline = true → n = min 3 ((s.board b).failures + 1) →
    ((i = .answerWindowExpiry ∧ 96 ≤ t.window ∧ err = t.firstError.getD .timeout) ∨
      ∃ ch, i = .answerCharacter ch ∧ t.data.length + 1 = t.kind.expected ∧
        (t.firstError = some err ∨ (t.firstError = none ∧ charError t.kind t.data.length ch = some err))) →
    (∀ c sent, t.kind = .step c sent → b = boardOf c → ∃ u, exec i s = .next u ∧
      u = { s with
        chans := upd s.chans c { s.chan c with
          op := .suspect, lastSent := (s.chan c).lastSent.map fun l => { l with failed := true }
          opened := (s.chan c).opened && (s.chan c).note.isNone, note := none }
        boards := upd s.boards b { s.board b with
          failures := n, request := .asking, countdown := 0 }
        line := none
        arb := { s.arb with together := u.arb.together }
        ex := s.ex.joinAll s.frame
          ((match (s.chan c).note with
            | none => []
            | some n => [.gainCancelled c n (s.chan c).ack (s.chan c).ackPhantom (s.chan c).level]) ++
            [.preamp b (.stepFailed c err n)]) }) ∧
    (t.kind = .readback → ∃ (u : State) (x : Board), exec i s = .next u ∧
      x = { s.board b with failures := n } ∧
      u = { s with
        boards := upd s.boards b
          (if (s.board b).request = .idle then { x with request := .deferred, countdown := 100 } else x)
        line := none
        arb := { s.arb with together := u.arb.together } })

/-- The failure that is the third in a row on an ONLINE board takes it OFFLINE: all eight channels of the board become
SUSPECT, with all else of them held, those of other boards are left alone, and an OFFLINE event is handed over last, after
GAIN_CANCELLED, where a cancel note is held, and STEP_FAILED for a STEP (R37, R41, R82, R83). The readback request is ASKING
after a STEP, and DEFERRED for 100 blocks after a READBACK with no request (R37). That GAIN_CANCELLED clears the note is log
entry 28. -/
def Obligations.ThirdFailureTakesBoardOffline : Prop :=
  ∀ (s : State) (t : InFlight) (i : Instr) (err : LineError) (b : BoardId) (x : Board), s.line = some t → t.board = b →
    (s.board b).offline = false → (s.board b).failures = 2 → (∀ c sent, t.kind = .step c sent → b = boardOf c) →
    ((i = .answerWindowExpiry ∧ 96 ≤ t.window ∧ err = t.firstError.getD .timeout) ∨
      ∃ ch, i = .answerCharacter ch ∧ t.data.length + 1 = t.kind.expected ∧
        (t.firstError = some err ∨ (t.firstError = none ∧ charError t.kind t.data.length ch = some err))) →
    x = { s.board b with offline := true, failures := 3 } →
    ∃ u, exec i s = .next u ∧
      u = { s with
        chans := u.chans, line := none, arb := { s.arb with together := u.arb.together }, ex := u.ex
        boards := upd s.boards b
          (match t.kind with
           | .step _ _ => { x with request := .asking, countdown := 0 }
           | .readback => if x.request = .idle then { x with request := .deferred, countdown := 100 } else x) } ∧
      (∀ c, boardOf c ≠ b → u.chan c = s.chan c) ∧
      (∀ c, boardOf c = b → (∀ sent, t.kind ≠ .step c sent) → u.chan c = { s.chan c with op := .suspect }) ∧
      (t.kind = .readback → u.ex = s.ex.join ⟨s.frame, .preamp b (.offline err)⟩) ∧
      ∀ c sent, t.kind = .step c sent →
        u.chan c = { s.chan c with
          op := .suspect, lastSent := (s.chan c).lastSent.map fun l => { l with failed := true }
          opened := (s.chan c).opened && (s.chan c).note.isNone, note := none } ∧
        u.ex = s.ex.joinAll s.frame
          ((match (s.chan c).note with
            | none => []
            | some n => [.gainCancelled c n (s.chan c).ack (s.chan c).ackPhantom (s.chan c).level]) ++
            [.preamp b (.stepFailed c err 3), .preamp b (.offline err)])

/-! ### Gain operations and phantom (Chapter 4) -/

/-- FORCED_STEP moves a channel whose window has run out to LINE_WAIT and counts the forced step; RAMP_END settles the
phantom state as the board acknowledged it and raises one PHANTOM event (R73, R91). That these are steps of their own,
before which a command finds the former state, is log entry 44. -/
def Obligations.ForcedStepAndRampEnd : Prop :=
  ∀ (s : State) (c : ChanId),
    ((s.chan c).op = .zcWait → (s.chan c).window = 0 →
      exec (.forcedStep c) s = .next { s with
        chans := upd s.chans c { s.chan c with op := .lineWait, forced := min 65535 ((s.chan c).forced + 1) } }) ∧
    ((s.chan c).phantom = .rampUp ∨ (s.chan c).phantom = .rampDown → (s.chan c).ramp = 0 →
      exec (.rampEnd c) s = .next { s with
        chans := upd s.chans c { s.chan c with phantom := if (s.chan c).ackPhantom then .on else .off }
        ex := s.ex.join ⟨s.frame,
          .phantom c (if (s.chan c).ackPhantom then .on else .off) false (s.chan c).ack⟩ })

/-- PENDING_APPLICATION puts the head entry that is due in force, and the crosspoints of the channel meet the new applied
level. Outside SETTLING, or with entries left, nothing else of the channel moves; the last entry in SETTLING makes the
settle check: at the target the operation ends, with GAIN_DONE or, under a cancel note, GAIN_CANCELLED if it was open and
with no event if not, and otherwise the next wait begins (R69, R77, R78, R82, R124). What a new level does to a mode that no
sample has used yet is log entry 7. That entries with one due sample do not arise is log entry 45. -/
def Obligations.ApplicationPutsLevelInForce : Prop :=
  ∀ (s : State) (c : ChanId) (e : PendingEntry) (rest : List PendingEntry),
    (s.chan c).pend = e :: rest → e.due = s.frame →
    ∃ t, exec (.pendingApplication c) s = .next t ∧
      t = { s with chans := t.chans, xps := t.xps, ex := t.ex } ∧
      (∀ d, d ≠ c → t.chan d = s.chan d ∧ ∀ f, t.xp d f = s.xp d f) ∧
      (∀ f, (s.xp c f).AtLevel (s.chan c).level e.setting.level (t.xp c f)) ∧
      (t.chan c).app = e.setting ∧ (t.chan c).pend = rest ∧ (t.chan c).ack = (s.chan c).ack ∧
      (t.chan c).tgt = (s.chan c).tgt ∧ (t.chan c).owner = (s.chan c).owner ∧
      ((s.chan c).op ≠ .settling ∨ rest ≠ [] →
        t.chan c = { s.chan c with app := e.setting, pend := rest } ∧ t.ex = s.ex) ∧
      ((s.chan c).op = .settling → rest = [] → ∃ es : List Event, t.ex = s.ex.joinAll s.frame es ∧
        ({ s.chan c with app := e.setting, pend := [] } : Chan).SettlesTo c (t.chan c) es)

/-- A target set by a request or a swap, by the state of the operation. It is stored with the tag and the set flag, the
urgent mark is cleared, an open operation counts the target it replaces, and a held cancel note ends with GAIN_CANCELLED,
after which the target goes on with counts of 0 (R71, R82, R122). It then starts an operation from IDLE, ends one that waits
for a crossing or for the line where it equals the acknowledged setting, opens one in SUSPECT, and otherwise only replaces
the target; in ACK_WAIT with no step carried it does what the resume state does (R79, R89). Everything else of the record
stays. That an operation in ZC_WAIT, LINE_WAIT, SETTLING or ACK_WAIT that is not open stays so is the model's choice, log
entry 36, and that a target which ends a wait under a cancel note raises two events is log entry 37. -/
def Obligations.RetargetByState : Prop :=
  ∀ (c : ChanId) (tag : Option Half) (x : Setting) (ch o opened closed : Chan) (before ended : List Event)
      (r : Chan × List Event),
    o = { ch with
      tgt := x, tag := tag, tgtSet := true, urgent := false, note := none
      superseded := if ch.note ≠ none then 0 else if ch.opened = true then min 65535 (ch.superseded + 1) else ch.superseded
      forced := if ch.note ≠ none then 0 else ch.forced } →
    opened = { o with opened := true, superseded := 0, forced := 0 } → closed = { o with opened := false } →
    before = (match ch.note with
      | none => []
      | some n => [.gainCancelled c n ch.ack ch.ackPhantom ch.level]) →
    ended = (if ch.opened = true then [.gainDone c ch.ack ch.level tag o.forced o.superseded] else []) →
    ch.requestTarget c tag x = r →
    (ch.op = .idle → (x = ch.ack → r = (o, before)) ∧
      (x ≠ ch.ack → r = ({ opened with op := .zcWait, window := 480, fresh := true }, before))) ∧
    (ch.op = .zcWait ∨ ch.op = .lineWait → (x ≠ ch.ack → r = (o, before)) ∧
      (x = ch.ack → r = ({ closed with op := .idle }, before ++ ended))) ∧
    (ch.op = .settling ∨ (ch.op = .ackWait ∧ (ch.carried ≠ .nothing ∨ ch.resume = .settling)) → r = (o, before)) ∧
    (ch.op = .ackWait → ch.carried = .nothing → ch.resume = .idle → (x = ch.ack → r = (o, before)) ∧
      (x ≠ ch.ack → r = ({ opened with resume := .zcWait }, before))) ∧
    (ch.op = .ackWait → ch.carried = .nothing → ch.resume = .zcWait → (x ≠ ch.ack → r = (o, before)) ∧
      (x = ch.ack → r = ({ closed with resume := .idle }, before ++ ended))) ∧
    (ch.op = .suspect → (x = ch.ack ∨ ch.opened = true → r = (o, before)) ∧
      (x ≠ ch.ack → ch.opened = false → r = (opened, before)))

/-- What a change of owner by a request does to the operation in flight: none to one that is not open or in IDLE; one whose
step is not yet commanded is abandoned at once with GAIN_CANCELLED, its target back at the acknowledged setting; a commanded
step runs on toward the sent state with a cancel note (R81, R82). In ACK_WAIT with no step carried it does what the resume
state gives, an abandoned one leaving a resume state of IDLE (R89). What becomes of a note that is held already, and the
target where no sent state is recorded, are log entry 17. -/
def Obligations.OwnerChangeCancels : Prop :=
  ∀ (c : ChanId) (k : OwnCause) (ch : Chan),
    (ch.opened = false → ch.cancel c k = (ch, [])) ∧
    (ch.opened = true → (ch.op = .zcWait ∨ ch.op = .lineWait ∨ ch.op = .suspect) →
      ch.cancel c k =
        ({ ch with tgt := ch.ack, opened := false, tag := none, urgent := false, note := none
                   op := if ch.op = .suspect then .suspect else .idle },
         [.gainCancelled c { tag := ch.tag, target := ch.tgt, superseded := ch.superseded, cause := k } ch.ack
           ch.ackPhantom ch.level])) ∧
    (ch.opened = true → ch.op = .ackWait → ch.carried = .nothing → ch.resume = .zcWait →
      ch.cancel c k =
        ({ ch with tgt := ch.ack, opened := false, tag := none, urgent := false, note := none, resume := .idle },
         [.gainCancelled c { tag := ch.tag, target := ch.tgt, superseded := ch.superseded, cause := k } ch.ack
           ch.ackPhantom ch.level])) ∧
    (ch.op = .idle ∨ (ch.op = .ackWait ∧ ch.carried = .nothing ∧ ch.resume = .idle) → ch.cancel c k = (ch, [])) ∧
    (ch.opened = true →
      (ch.op = .settling ∨ (ch.op = .ackWait ∧ (ch.carried ≠ .nothing ∨ ch.resume = .settling))) →
      ch.cancel c k =
        ({ ch with tgt := (match ch.lastSent with
                     | some l => l.sent.setting
                     | none => ch.ack)
                   tag := none, superseded := 0, forced := 0, urgent := false
                   note := some { tag := ch.tag, target := ch.tgt, superseded := ch.superseded, cause := k } }, []))

/-! ### Block boundaries (Chapters 5, 7, 8) -/

/-- At a boundary the Preamp Line Controller lowers the countdowns of the DEFERRED boards alone, and the Exchange Unit
writes the frame number, lowers the meter countdown, and lowers the poll countdown while ENABLE is 1 and polling is on; a
block whose work is done does nothing (R40, R153, R178). That the work of a boundary is done once, block by block as
commanded, is the model's choice, log entry 6; that a countdown which reaches 0 stands at 0 until the command for its expiry
is log entry 24. -/
def Obligations.BoundaryLowersCountdowns : Prop :=
  ∀ (s : State) (ph : PhaseInput),
    (s.owed.contains .preampLine = true →
      exec (.blockBoundary [.preampLine] ph) s = .next { s with
        owed := s.owed.filter fun v => v != .preampLine
        boards := tab fun b => if (s.board b).request = .deferred
          then { s.board b with countdown := (s.board b).countdown - 1 } else s.board b }) ∧
    (s.owed.contains .exchange = true →
      exec (.blockBoundary [.exchange] ph) s = .next { s with
        owed := s.owed.filter fun v => v != .exchange
        ex := { s.ex with
          frameSnapshot := s.frame
          meterCountdown := s.ex.meterCountdown - 1
          pollCountdown := if s.ex.enable = true ∧ 0 < s.ex.pollInterval then s.ex.pollCountdown - 1
            else s.ex.pollCountdown } }) ∧
    ∀ u, s.owed.contains u = false → exec (.blockBoundary [u] ph) s = .next s

/-- The Feed Ports' work at a boundary, port by port, each with at most one LINK event, in port order (R149). A port that is
OFF is left alone, and one that was enabled since the boundary before begins to judge (R137, R140). A judging port makes its
verdict of the ended block (R140), keeps a valid word (R141) and makes its counts (R142); the counts move its link state,
with the resets of the state entered, and otherwise stand (R143 to R146); a listening flag that changes while the link is UP
or DEGRADED and its state stands raises LISTEN (R147); and the event carries the counts as made, the latest word and no tag
(R148). That the five ports work as one block is log entry 38. That all these events join before any report is written is
log entry 43. -/
def Obligations.VerdictMovesLink : Prop :=
  ∀ (s : State) (ph : PhaseInput), s.owed.contains .feedPorts = true →
    ∃ (t : State) (evs : Port → List Event), exec (.blockBoundary [.feedPorts] ph) s = .next t ∧
      t = { s with
        owed := s.owed.filter (fun v => v != .feedPorts), ports := t.ports
        ex := s.ex.joinAll s.frame (evs .a ++ evs .b ++ evs .c1 ++ evs .c2 ++ evs .d) } ∧
      ∀ (p : Port) (o : PortRec), o = s.port p →
        (o.state = .off → t.port p = o ∧ evs p = []) ∧
        (o.state ≠ .off → o.judging = false → t.port p = { o with judging := true, word := none } ∧ evs p = []) ∧
        ∀ (v : Verdict) (valid : Bool) (seq : Option Byte) (latest : Option LatestWord) (k : PortRec) (n : Nat),
          o.state ≠ .off → o.judging = true →
          ((o.word = none ∧ v = .missing ∧ seq = o.lastSeq ∧ latest = o.latest) ∨
            ∃ w, o.word = some w ∧
              ((w.check ≠ w.id + w.seq + w.third + 0x5A#8 ∧ v = .check ∧ seq = o.lastSeq ∧ latest = o.latest) ∨
                (w.check = w.id + w.seq + w.third + 0x5A#8 ∧ seq = some w.seq ∧ latest = some ⟨w.id, w.third⟩ ∧
                  ((v = .slip ∧ ∃ q, o.lastSeq = some q ∧ w.seq ≠ q + 1#8) ∨
                    (v = .good ∧ ∀ q, o.lastSeq = some q → w.seq = q + 1#8))))) →
          (valid = true ↔ v = .good ∨ v = .slip) →
          k = { o with
            lastSeq := seq, latest := latest, word := none
            validRun := if valid = true then min 16 (o.validRun + 1) else 0
            invalidRun := if valid = true then 0 else min 8 (o.invalidRun + 1)
            window := (o.window ++ [v != .good]).drop (if 64 < o.window.length + 1 then 1 else 0)
            cleanRun := if o.state = .degraded ∧ v = .good then min 64 (o.cleanRun + 1) else 0 } →
          n = k.window.countP id →
          (o.state = .seeking ∨ o.state = .down →
            (15 ≤ o.validRun → valid = true →
              t.port p = { k with state := .up, validRun := 0, invalidRun := 0, cleanRun := 0, window := [] } ∧
              evs p = [.link p o.state .up .validRun n latest none]) ∧
            (¬(15 ≤ o.validRun ∧ valid = true) → t.port p = k ∧ evs p = [])) ∧
          (o.state = .up → 4 ≤ n →
            t.port p = { k with state := .degraded, cleanRun := 0 } ∧
            evs p = [.link p .up .degraded .errorWindow n latest none]) ∧
          (o.state = .degraded → 7 ≤ o.invalidRun → valid = false →
            t.port p = { k with state := .down, validRun := 0, cleanRun := 0 } ∧
            evs p = [.link p .degraded .down .lost n latest none]) ∧
          (o.state = .degraded → 63 ≤ o.cleanRun → v = .good →
            t.port p = { k with state := .up, cleanRun := 0 } ∧
            evs p = [.link p .degraded .up .cleanRun n latest none]) ∧
          ((o.state = .up ∧ n < 4) ∨
              (o.state = .degraded ∧ ¬(7 ≤ o.invalidRun ∧ valid = false) ∧ ¬(63 ≤ o.cleanRun ∧ v = .good)) →
            t.port p = k ∧
            ((∃ a b, valid = true ∧ o.latest = some a ∧ latest = some b ∧ a.third.getLsbD 7 ≠ b.third.getLsbD 7) →
              evs p = [.link p o.state o.state .listen n latest none]) ∧
            (¬(∃ a b, valid = true ∧ o.latest = some a ∧ latest = some b ∧ a.third.getLsbD 7 ≠ b.third.getLsbD 7) →
              evs p = []))

/-- At a boundary the Meter and Guard Unit clears every block record and merges the block into the interval record, and a
guard that is off, or whose channel carries the start-up flag, is left alone with its channel (R98, R100, R107). -/
def Obligations.BoundaryMergesBlocks : Prop :=
  ∀ (s : State) (ph : PhaseInput), s.owed.contains .meterGuard = true →
    ∃ t, exec (.blockBoundary [.meterGuard] ph) s = .next t ∧
      t = { s with owed := t.owed, blocks := t.blocks, intervals := t.intervals, guards := t.guards, chans := t.chans,
                   ex := t.ex } ∧
      ∀ c : ChanId,
        t.blocks[c] = { peak := 0, clip := false, fault := false, suspect := false } ∧
        t.intervals[c].peak = max s.intervals[c].peak (s.blocks[c].peak / 256) ∧
        t.intervals[c].clip = (s.intervals[c].clip || s.blocks[c].clip) ∧
        t.intervals[c].fault = (s.intervals[c].fault || s.blocks[c].fault) ∧
        t.intervals[c].suspect = (s.intervals[c].suspect || s.blocks[c].suspect) ∧
        ((s.guard c).enable = false ∨ (s.chan c).startup = true →
          t.guard c = s.guard c ∧ t.chan c = s.chan c ∧ t.intervals[c].guarded = s.intervals[c].guarded)

/-- The guards at a boundary, channel by channel in ascending order, each by the peak code of its completed block (R107,
R111). One that is off, or whose channel carries the start-up flag, is left alone with its channel; one whose block is below
the threshold starts again; one that is over counts, and waits while its hold is not met or its rest runs; one that acts
takes one preamp step off the target, marks the operation urgent, rests, and hands over a GUARD event (R108); one that would
go below its floor reports it once per episode and does nothing else (R109). The order of the events of one action is log
entry 15. That all these events join before any report is written is log entry 43. -/
def Obligations.GuardLowersTarget : Prop :=
  ∀ (s : State) (ph : PhaseInput), s.owed.contains .meterGuard = true →
    ∃ (t : State) (evs : ChanId → List Event), exec (.blockBoundary [.meterGuard] ph) s = .next t ∧
      t = { s with
        owed := s.owed.filter (fun v => v != .meterGuard), blocks := t.blocks, intervals := t.intervals
        guards := t.guards, chans := t.chans, ex := s.ex.joinAll s.frame ((List.finRange 64).flatMap evs) } ∧
      ∀ (c : ChanId) (g : Guard) (o : Chan) (code n : Nat) (after : Int), g = s.guard c → o = s.chan c →
        code = s.blocks[c].peak / 256 → n = min 32 (g.overCount + 1) → after = min o.tgt.analog (o.app.analog - 6) →
        (g.enable = false ∨ o.startup = true → t.guard c = g ∧ t.chan c = o ∧ evs c = []) ∧
        (g.enable = true → o.startup = false →
          (code < g.threshold → 1 ≤ g.hold →
            t.guard c = { g with restLeft := g.restLeft - 1, overCount := 0, floorReported := false } ∧ t.chan c = o ∧
            t.intervals[c].guarded = s.intervals[c].guarded ∧ evs c = []) ∧
          (g.threshold ≤ code → n < g.hold ∨ 1 < g.restLeft →
            t.guard c = { g with restLeft := g.restLeft - 1, overCount := n } ∧ t.chan c = o ∧
            t.intervals[c].guarded = s.intervals[c].guarded ∧ evs c = []) ∧
          (g.threshold ≤ code → g.hold ≤ n → g.restLeft ≤ 1 → (g.floor : Int) ≤ o.app.analog - 6 →
            t.guard c = { g with restLeft := g.rest, overCount := 0 } ∧ t.intervals[c].guarded = true ∧
            (t.chan c).tgt = { o.tgt with analog := after } ∧ (t.chan c).urgent = true ∧
            (t.chan c).tgtSet = o.tgtSet ∧ (t.chan c).ack = o.ack ∧ (t.chan c).app = o.app ∧
            (t.chan c).owner = o.owner ∧ (t.chan c).pend = o.pend ∧
            (o.op = .zcWait ∨ o.op = .lineWait ∨ o.op = .settling →
              (t.chan c).tag = o.tag ∧ (t.chan c).superseded = o.superseded) ∧
            (after = o.tgt.analog → t.chan c = { o with urgent := true }) ∧
            (after < o.tgt.analog → o.op = .idle → { o.tgt with analog := after } ≠ o.ack →
              (t.chan c).op = .zcWait ∧ (t.chan c).opened = true ∧ (t.chan c).tag = none) ∧
            ∃ es, evs c = es ++ [.guard c n code o.app.analog o.tgt.analog after g.rest] ∧
              ({ o.tgt with analog := after } ≠ o.ack → es = [])) ∧
          (g.threshold ≤ code → g.hold ≤ n → g.restLeft ≤ 1 → o.app.analog - 6 < (g.floor : Int) →
            t.guard c = { g with restLeft := 0, overCount := n, floorReported := true } ∧ t.chan c = o ∧
            t.intervals[c].guarded = s.intervals[c].guarded ∧
            evs c = if g.floorReported = true then [] else [.guardFloor c n code o.app.analog g.floor]))

/-- The Clock Unit's work at a boundary. It reads the fitness of C1, C2 and EXTERNAL (R154). A reference read as unfit is
left at once for a fit partner, or for HOLDOVER in WAIT, in any lock state, setting LOCK where lock was held (R158).
Otherwise: LOCKED on INTERNAL holds the nominal rate; a reference just taken begins to be judged (R155); LOCKED and
ACQUIRING count the verdict, in which a block without timing is OUTSIDE (R155), so that the 64th INSIDE block in a row
declares lock and the fourth OUTSIDE block loses it, with LOCK set (R156, R157); RESUME tries the kept reference again
(R159); REST counts down and WAIT takes a reference that has become fit (R160). Each change hands over one CLOCK event with
the record before it, its counts as made and the link states as read (R162). At the end the marks of the timing that C1 and
C2 gave in the ended block are cleared (R155; log entry 27). That the phase and rate come with the command is log entry 4,
the unit of the rate log entry 5, what gives timing log entry 27, the holdover form outside HOLDOVER log entry 35; that the
in-window run becomes 0 at lock is read from the worked sequence of section 8.8, log entry 20. The counts in the event of a
change that follows no verdict are log entry 41. -/
def Obligations.ClockJudgesReference : Prop :=
  ∀ (s : State) (ph : PhaseInput) (k : Clock) (r partner : ClockRef) (c1 c2 unfit inside : Bool)
      (event : LockState → HoldForm → ClockRef → ClockCause → Nat → Nat → Nat → Exchange) (lockSet : Exchange),
    s.owed.contains .clock = true →
    k = { s.clock with extFit := s.clock.edge, edge := false, c1 := (s.port .c1).state, c2 := (s.port .c2).state } →
    (c1 = true ↔ k.c1 = .up ∨ k.c1 = .degraded) → (c2 = true ↔ k.c2 = .up ∨ k.c2 = .degraded) → r = k.ref →
    (unfit = true ↔ (r = .c1 ∧ c1 = false) ∨ (r = .c2 ∧ c2 = false) ∨ (r = .external ∧ s.clock.edge = false)) →
    partner = (if r = .c1 ∧ c2 = true then .c2 else if r = .c2 ∧ c1 = true then .c1 else .nothing) →
    (inside = true ↔ ph.inside = true ∧ (r = .c1 → (s.port .c1).timing = true) ∧
      (r = .c2 → (s.port .c2).timing = true) ∧ (r = .external → s.clock.edge = true)) →
    lockSet = { s.ex with sticky := { s.ex.sticky with lock := true } } →
    (∀ l form ref cause inRun outRun acq, event l form ref cause inRun outRun acq =
      (if cause = .lostLock ∨ (cause = .unfit ∧ k.lock = .locked) then lockSet else s.ex).join
        ⟨s.frame, .clock k.lock l k.form form r ref k.preferred cause inRun outRun acq k.c1 k.c2 k.extFit none⟩) →
    ∃ t, exec (.blockBoundary [.clock] ph) s = .next t ∧
      t = { s with
        owed := s.owed.filter (fun v => v != .clock), clock := t.clock, ports := t.ports, ex := t.ex } ∧
      (∀ p, t.port p = if p = .c1 ∨ p = .c2 then { s.port p with timing := false } else s.port p) ∧
      (unfit = true →
        t.clock = { k with
          ref := partner, lock := if partner = .nothing then .holdover else .acquiring, form := .wait, inRun := 0
          outRun := 0, acq := 0, retry := 0, armed := true } ∧
        t.ex = event t.clock.lock .wait partner .unfit k.inRun k.outRun k.acq) ∧
      (unfit = false →
        (k.lock = .locked → r = .internal → t.clock = { k with heldRate := 48000000 } ∧ t.ex = s.ex) ∧
        ((k.lock = .locked ∧ r ≠ .internal) ∨ k.lock = .acquiring → k.armed = false →
          t.clock = { k with armed := true } ∧ t.ex = s.ex) ∧
        (k.lock = .locked → r ≠ .internal → k.armed = true →
          (inside = true → t.clock = { k with outRun := 0, heldRate := ph.rate } ∧ t.ex = s.ex) ∧
          (inside = false → k.outRun < 3 → t.clock = { k with outRun := k.outRun + 1 } ∧ t.ex = s.ex) ∧
          (inside = false → 3 ≤ k.outRun → t.clock = { k with lock := .holdover, form := .resume, outRun := 0 } ∧
            t.ex = event .holdover .resume r .lostLock k.inRun (k.outRun + 1) k.acq)) ∧
        (k.lock = .acquiring → k.armed = true →
          (inside = true → 63 ≤ k.inRun →
            t.clock = { k with lock := .locked, heldRate := ph.rate, inRun := 0, outRun := 0, acq := 0 } ∧
            t.ex = event .locked k.form r .locked 64 k.outRun (k.acq + 1)) ∧
          (inside = false ∨ k.inRun < 63 →
            t.clock = { k with acq := k.acq + 1, inRun := if inside = true then k.inRun + 1 else 0 } ∧ t.ex = s.ex)) ∧
        (k.lock = .holdover → k.form = .resume →
          t.clock = { k with lock := .acquiring, inRun := 0, outRun := 0, acq := 0, retry := 0, armed := true } ∧
          t.ex = event .acquiring .resume r .resume k.inRun k.outRun k.acq) ∧
        (k.lock = .holdover → k.form = .rest → t.clock = { k with retry := k.retry - 1 } ∧ t.ex = s.ex) ∧
        (k.lock = .holdover → k.form = .wait →
          ∀ found : ClockRef, found = (if k.preferred = .portC ∧ c1 = true then .c1
              else if k.preferred = .portC ∧ c2 = true then .c2
              else if k.preferred = .external ∧ k.extFit = true then .external else .nothing) →
            (found = .nothing → t.clock = k ∧ t.ex = s.ex) ∧
            (found ≠ .nothing →
              t.clock = { k with
                ref := found, lock := .acquiring, inRun := 0, outRun := 0, acq := 0, retry := 0, armed := true } ∧
              t.ex = event .acquiring .wait found .found k.inRun k.outRun k.acq)))

/-- What falls due at a boundary besides: a readback deferred long enough is sought, an acquisition of 500 blocks gives up
into a holdover that keeps the reference for 1,000 blocks, and a REST holdover whose countdown has run out tries its
reference again, each CLOCK event carrying the link states as the boundary work read them (R40, R156, R160, R162). That
these are steps of their own after the boundary is log entry 24, the holdover form outside HOLDOVER log entry 35. The counts
in the event of a change that follows no verdict are log entry 41. -/
def Obligations.TimersExpire : Prop :=
  ∀ s : State,
    (∀ b, (s.board b).request = .deferred → (s.board b).countdown = 0 →
      exec (.readbackRetry b) s = .next { s with
        boards := upd s.boards b { s.board b with request := .asking, countdown := 0 } }) ∧
    (s.clock.lock = .acquiring → 500 ≤ s.clock.acq →
      ∃ t, exec .acquisitionTimeout s = .next t ∧
        t = { s with
          clock := { s.clock with lock := .holdover, form := .rest, retry := 1000, inRun := 0, acq := 0 }
          ex := t.ex } ∧
        t.ex = s.ex.join ⟨s.frame, .clock .acquiring .holdover s.clock.form .rest s.clock.ref
          s.clock.ref s.clock.preferred .timeout s.clock.inRun s.clock.outRun s.clock.acq s.clock.c1
          s.clock.c2 s.clock.extFit none⟩) ∧
    (s.clock.lock = .holdover → s.clock.form = .rest → s.clock.retry = 0 →
      ∃ t, exec .clockRetry s = .next t ∧
        t = { s with clock := t.clock, ex := t.ex } ∧
        t.clock.lock = .acquiring ∧ t.clock.ref = s.clock.ref ∧ t.clock.inRun = 0 ∧ t.clock.outRun = 0 ∧
        t.clock.acq = 0 ∧ t.clock.heldRate = s.clock.heldRate ∧ t.clock.preferred = s.clock.preferred ∧
        t.ex = s.ex.join ⟨s.frame, .clock .holdover .acquiring .rest .rest s.clock.ref
          s.clock.ref s.clock.preferred .retry s.clock.inRun s.clock.outRun s.clock.acq s.clock.c1
          s.clock.c2 s.clock.extFit none⟩)

/-- METER_CLOSE, when the meter countdown has run out, clears the interval records and every sat_seen flag and reloads the
countdown (R101, R102, R103, R178). Its snapshot joins a held one, channel by channel; becomes the held one where a loss, an
event or a want of room stands before it; and otherwise is written at once, as a METER report, into the next block (R181,
R190). That the close is a step of its own after the boundary is log entry 24. -/
def Obligations.CloseTakesSnapshot : Prop :=
  ∀ (s : State) (x : Exchange), s.ex.meterCountdown = 0 → x = { s.ex with meterCountdown := s.ex.meterInterval } →
    ∃ (t : State) (m : Snapshot), exec .meterClose s = .next t ∧
      t = { s with intervals := t.intervals, xps := t.xps, ex := t.ex } ∧
      m.stamp = s.frame ∧
      (∀ c : ChanId, m.entries[c] =
        { peak := s.intervals[c].peak, clip := s.intervals[c].clip, fault := s.intervals[c].fault,
          guarded := s.intervals[c].guarded, suspect := s.intervals[c].suspect,
          sat := PerFeed.of fun f => (s.xp c f).satSeen, limited := PerFeed.of fun f => (s.xp c f).limited } ∧
        t.intervals[c] = { peak := 0, clip := false, fault := false, guarded := false, suspect := false } ∧
        ∀ f, t.xp c f = { s.xp c f with satSeen := false }) ∧
      (∀ old, s.ex.held = some old → ∃ k : Snapshot, t.ex = { x with held := some k } ∧ k.stamp = s.frame ∧
        ∀ c : ChanId, k.entries[c] =
          { peak := max old.entries[c].peak m.entries[c].peak
            clip := old.entries[c].clip || m.entries[c].clip
            fault := old.entries[c].fault || m.entries[c].fault
            guarded := old.entries[c].guarded || m.entries[c].guarded
            suspect := old.entries[c].suspect || m.entries[c].suspect
            sat := PerFeed.of fun f => old.entries[c].sat.get f || m.entries[c].sat.get f
            limited := m.entries[c].limited }) ∧
      (s.ex.held = none → ¬(x.lost = 0 ∧ x.queue = [] ∧ x.enable = true ∧ x.filled < x.count) →
        t.ex = { x with held := some m }) ∧
      (s.ex.held = none → x.lost = 0 → x.queue = [] → x.enable = true → x.filled < x.count → Memory.wf x.mem →
        t.ex = { x with filled := x.filled + 1, mem := t.ex.mem } ∧
        x.Reports (reportBlock 15#8 x.unitId s.frame (meterBody m)) t.ex)

/-- SWAP_APPLY exchanges the banks of every loaded channel of the pending mask at once: the scene's target, its owner if
that feed is enabled, its modes with references from its target, its trims and flags become active, and what was active
becomes the shadow; a channel outside the mask or not loaded is left as it is; the pending mask is empty. The operation of a
swapped channel responds to the scene's target as to a request's, and nothing else of its record moves (R122). SWAP_DONE is
handed over first, then the OWNERSHIP events with cause SCENE, and then what the targets cause, each in channel order (R123,
R126). SCENE becomes the cause of every flag that differs at the swap's first sample (R69, R121 to R126; that it stays so
where an application or a request of the same period moves the raw gain too is log entry 7). What the target does to an
operation that is not open is log entry 36, to one that waits under a cancel note log entry 37. That the command comes
before the sample of the period, and a swap left to SAMPLE_PERIOD after it (R9), is log entry 6. A fold that no sample has
used is captured as it stands, log entry 7. That all these events join before any report is written is log entry 43. -/
def Obligations.SwapExchangesBanks : Prop :=
  ∀ s : State, s.owed.contains .sceneStore = true → s.scenes.mask ≠ 0#64 →
    ∃ t, exec .swapApply s = .next t ∧
      t = { s with owed := t.owed, chans := t.chans, xps := t.xps, scenes := t.scenes, ex := t.ex } ∧
      t.scenes.mask = 0#64 ∧ t.scenes.tag = none ∧ t.scenes.loaded = s.scenes.loaded ∧
      (∀ swapped : ChanId → Bool,
        (∀ c, swapped c = (s.scenes.mask.getLsbD c.val && s.scenes.loaded.getLsbD c.val)) →
        t.ex = s.ex.joinAll s.frame (.swapDone s.scenes.tag
          ((List.finRange 64).countP fun c => swapped c && decide ((t.chan c).owner ≠ (s.chan c).owner))
          (s.scenes.mask &&& s.scenes.loaded) (s.scenes.mask &&& ~~~s.scenes.loaded) ::
          (((List.finRange 64).flatMap fun c =>
            if swapped c = true ∧ (t.chan c).owner ≠ (s.chan c).owner
            then [.ownership c (s.chan c).owner (t.chan c).owner .scene s.scenes.tag] else []) ++
          (List.finRange 64).flatMap fun c =>
            if swapped c = true then ((s.chan c).requestTarget c s.scenes.tag s.scenes.shadow[c].target).2 else []))) ∧
      ∀ c : ChanId,
        ((s.scenes.mask.getLsbD c.val && s.scenes.loaded.getLsbD c.val) = false →
          t.chan c = s.chan c ∧ (∀ f, t.xp c f = s.xp c f) ∧ t.scenes.shadow[c] = s.scenes.shadow[c]) ∧
        ((s.scenes.mask.getLsbD c.val && s.scenes.loaded.getLsbD c.val) = true →
          t.chan c = { ((s.chan c).requestTarget c s.scenes.tag s.scenes.shadow[c].target).1 with
            owner := (t.chan c).owner } ∧
          (t.chan c).tgt = s.scenes.shadow[c].target ∧ (t.chan c).tag = s.scenes.tag ∧ (t.chan c).tgtSet = true ∧
          (t.chan c).urgent = false ∧ (t.chan c).phantomTgt = (s.chan c).phantomTgt ∧ (t.chan c).ack = (s.chan c).ack ∧
          (t.chan c).app = (s.chan c).app ∧ (t.chan c).pend = (s.chan c).pend ∧
          (∀ f, (t.chan c).owner = some f ↔ s.scenes.shadow[c].owner = some f ∧ s.feedOn.get f = true) ∧
          (∀ f, (t.xp c f).trim = (s.scenes.shadow[c].feeds.get f).trim ∧
            (t.xp c f).mute = (s.scenes.shadow[c].feeds.get f).mute ∧
            (t.xp c f).invert = (s.scenes.shadow[c].feeds.get f).invert ∧ (t.xp c f).satSeen = (s.xp c f).satSeen ∧
            (t.xp c f).limited = (s.xp c f).limited ∧
            (t.xp c f).mode = (if (t.chan c).owner = some f then .owner
              else if (s.scenes.shadow[c].feeds.get f).track then .track s.scenes.shadow[c].target.level else .follow) ∧
            (t.xp c f).cause = .scene) ∧
          t.scenes.shadow[c].target = (s.chan c).tgt ∧ t.scenes.shadow[c].owner = (s.chan c).owner ∧
          ∀ f, t.scenes.shadow[c].feeds.get f =
            { track := hasRef (s.xp c f).mode && decide ((s.chan c).owner ≠ some f), trim := (s.xp c f).trim,
              mute := (s.xp c f).mute, invert := (s.xp c f).invert })

/-- A return word that arrives while its port is OFF is discarded; the first of a block on a judging port is kept, and a
further one leaves it; an edge at the word clock input is recorded (R137, R138, R140, R154). That any word a running
port receives marks timing is the model's choice, log entry 27. -/
def Obligations.ArrivalsAreRecorded : Prop :=
  ∀ (s : State) (p : Port) (w : ReturnWord),
    exec .wordClockEdge s = .next { s with clock := { s.clock with edge := true } } ∧
    ((s.port p).state = .off → exec (.returnWord p w) s = .next s) ∧
    ((s.port p).state ≠ .off → (s.port p).judging = true → (s.port p).word = none →
      exec (.returnWord p w) s = .next (s.setPort p { s.port p with word := some w, timing := true })) ∧
    ((s.port p).state ≠ .off → (s.port p).judging = false ∨ (s.port p).word ≠ none →
      exec (.returnWord p w) s = .next (s.setPort p { s.port p with timing := true }))

/-! ### The exchange (Chapters 9 and 10) -/

/-- POKE, the poll countdown's expiry and the change of ENABLE from 0 to 1 start a walk, or set the walk-again flag of one
that runs; POKE is discarded while ENABLE is 0; ENABLE going to 0 drops the flag, a poll countdown that has run out raising
its trigger first (log entry 24); a written value that is in force changes nothing; and a BLOCKS code takes effect only
while ENABLE is 0, emptying the store (R167, R169, R178). -/
def Obligations.TriggersAndControl : Prop :=
  ∀ (s : State) (v : Word) (x : Exchange), x = s.ex →
    (x.enable = false → exec (.poke v) s = .next s) ∧
    (x.enable = true → x.walking = false → exec (.poke v) s = .next { s with ex := { x with walking := true } }) ∧
    (x.enable = true → x.walking = true → exec (.poke v) s = .next { s with ex := { x with again := true } }) ∧
    (x.enable = true → 0 < x.pollInterval → x.pollCountdown = 0 →
      exec .pollCountdownExpiry s = .next { s with ex := { x with
        pollCountdown := x.pollInterval, walking := true, again := x.again || x.walking } }) ∧
    (x.enable = false →
      exec (.enable true) s = .next { s with ex := { x with
        enable := true, pollCountdown := x.pollInterval, walking := true, again := x.again || x.walking } }) ∧
    (x.enable = true →
      (0 < x.pollInterval → x.pollCountdown = 0 → exec (.enable false) s = .next { s with ex := { x with
        pollCountdown := x.pollInterval, walking := true, enable := false, again := false } }) ∧
      (x.pollInterval = 0 ∨ x.pollCountdown ≠ 0 →
        exec (.enable false) s = .next { s with ex := { x with enable := false, again := false } })) ∧
    exec (.enable x.enable) s = .next s ∧
    ∀ code, (x.enable = true ∨ code = x.blocksCode → exec (.blocks code) s = .next s) ∧
      (x.enable = false → code ≠ x.blocksCode →
        exec (.blocks code) s = .next { s with ex := { x with blocksCode := code, oldest := 0, filled := 0 } })

/-- A walk with no record in hand stops at the end of the chain, at a bad link with CHAIN set, and at a record that is not
OFFERED, its cursor where it was; with the walk-again flag on and ENABLE 1 a new walk starts at once; an IDLE walk does
nothing; an OFFERED READ_CHANNEL record that passes the checks is taken, answered, and becomes the cursor record (R96, R169,
R170, R171). The controller's writes come first: each byte in the anchor and the request window takes the last value written
to it, and those elsewhere are discarded (R164). A record of any kind that the controller writes whole and links at the
cursor of a walk that stands at the end of the chain is taken as the command for its kind takes it (R170, R171, R173). That
CHAIN_WALK carries the controller's writes, and where those commands link a record, is log entry 2; that a write beyond the
exchange memory faults is log entry 32. -/
def Obligations.WalkTakesOrStops : Prop :=
  (∀ (s : State) (x : Exchange), x = s.ex →
    (x.walking = false ∨ x.inHand.isSome = true → exec (.chainWalk []) s = .next s) ∧
    (x.walking = true → x.inHand = none →
      ∀ n, n = (readWord x.mem (x.cursor + 8)).toNat → ∀ y : Exchange,
        (y = if x.again = true ∧ x.enable = true then { x with again := false } else { x with walking := false }) →
        (n = 0 → exec (.chainWalk []) s = .next { s with ex := y }) ∧
        (n ≠ 0 → ¬(n % 64 = 0 ∧ 0x80 ≤ n ∧ n ≤ 0xFFC0) →
          exec (.chainWalk []) s = .next { s with ex := { y with sticky := { y.sticky with chain := true } } }) ∧
        (n % 64 = 0 → 0x80 ≤ n → n ≤ 0xFFC0 → readByte x.mem n ≠ 1#8 →
          exec (.chainWalk []) s = .next { s with ex := y }) ∧
        (n % 64 = 0 → 0x80 ≤ n → n ≤ 0xFFC0 → readByte x.mem n = 1#8 → readByte x.mem (n + 1) = 4#8 →
          ∀ c src, decodeChannel (readByte x.mem (n + 6)) = some c → decodeSource (readByte x.mem (n + 2)) = some src →
          x.enable = true → x.clearAsked = false → Memory.wf x.mem →
          ∃ t, exec (.chainWalk []) s = .next t ∧ t = { s with ex := t.ex } ∧
            t.ex = { x with cursor := n, mem := t.ex.mem } ∧
            readBytes t.ex.mem n 4 = [2#8, 4#8, readByte x.mem (n + 2), 0#8] ∧
            readBytes t.ex.mem (n + 0x20) 32 = s.channelReply c ∧
            x.StoresOutcome n t.ex)) ∧
    (∀ writes : List Host.Cell, (∀ w ∈ writes, w.1 < 0x20000) → Memory.wf x.mem →
      ∃ m, exec (.chainWalk writes) s = exec (.chainWalk []) { s with ex := { x with mem := m } } ∧ Memory.wf m ∧
        ∀ a, readByte m a =
          if 0x40 ≤ a ∧ a < 0x10000 then ((writes.reverse.find? fun w => w.1 == a).map Prod.snd).getD (readByte x.mem a)
          else readByte x.mem a)) ∧
  (∀ (s : State) (w : Host.Cell) (rest : List Host.Cell), 0x20000 ≤ w.1 →
    exec (.chainWalk (w :: rest)) s = .fault (.outsideExchangeMemory w.1)) ∧
  ∀ (s : State) (h : ReqHead) (k b1 b2 : Byte) (n1 n2 n3 n4 : Half) (w : Word) (m : ChanMask)
      (cells : Nat → List Byte → List Host.Cell), s.Ready h →
    (∀ a bs, cells a bs = (List.range bs.length).map fun j => (a + j, bs.getD j 0#8)) →
    ∀ p ∈ ([(.badKind h k, k, []), (.setAnalog h n1, 1#8, little 2 n1.toNat), (.setPad h b1, 2#8, [b1]),
        (.setPhantom h b1, 3#8, [b1]), (.readChannel h, 4#8, []), (.resync h, 5#8, []),
        (.setGuard h b1 n1 n2 n3 n4, 6#8,
          [b1, 0#8] ++ little 2 n1.toNat ++ little 2 n2.toNat ++ little 2 n3.toNat ++ little 2 n4.toNat),
        (.setTrim h n1, 7#8, little 2 n1.toNat), (.setMode h b1, 8#8, [b1]), (.setFlags h b1 b2, 9#8, [b1, b2]),
        (.claim h, 10#8, []), (.release h, 11#8, []), (.setFeed h b1 b2, 12#8, [b1, b2]),
        (.loadSlotmap h w, 13#8, little 4 w.toNat), (.loadShadow h w b1 b2, 14#8, little 4 w.toNat ++ [b1, b2]),
        (.swap h m, 15#8, little 8 m.toNat), (.setClock h b1, 16#8, [b1]),
        (.setExchange h b1 n1 n2 n3 b2, 17#8,
          [b1, 0#8] ++ little 2 n1.toNat ++ little 2 n2.toNat ++ little 2 n3.toNat ++ [b2])] :
        List (Instr × Byte × List Byte)),
      exec p.1 s = exec (.chainWalk
        (cells h.off.toNat ([1#8, p.2.1, h.source, 0#8] ++ little 2 h.tag.toNat ++ [h.channel, h.feed] ++
            List.replicate 8 0#8 ++ padTo 16 p.2.2) ++
          cells (s.ex.cursor + 8) (little 4 h.off.toNat))) s

/-- The reply of a crosspoint request is formed from the state that its first new sample uses, with CLAMPED for OK where the
fold it made is clamped at that sample's applied level (R52), and REPLY_WRITE writes it with DONE, after which the walk goes
on, or stops where ENABLE is 0; before that sample REPLY_WRITE does nothing (R58, R170, R171). That the reply waits as that
sample saw it is log entry 13. -/
def Obligations.ReplyFollowsFirstSample : Prop :=
  ∀ (s : State) (k : InHand), s.ex.inHand = some k →
    (k.ready = none → exec .replyWrite s = .next s) ∧
    (k.ready = none → s.calmBefore = true → (∀ g : LaneId, s.lanes[g].judged = true) →
      ∃ (t : State) (r : Result), exec .samplePeriod s = .next t ∧
        t.ex.inHand = some ⟨k.head, k.result, k.reply, some (r, s.xpReply k.reply)⟩ ∧
        (k.reply.fold = none ∨ k.result ≠ .ok → r = k.result) ∧
        ∀ trim ref raw, k.reply.fold = some (trim, ref) → k.result = .ok → raw = trim + ref - (s.chan k.reply.c).level →
          (-240 ≤ raw ∧ raw ≤ 96 → r = .ok) ∧ (raw < -240 ∨ 96 < raw → r = .clamped)) ∧
    ∀ r bs, k.ready = some (r, bs) → bs.length ≤ 32 → s.ex.clearAsked = false → Memory.wf s.ex.mem →
      ∃ t, exec .replyWrite s = .next t ∧ t = { s with ex := t.ex } ∧
        t.ex = { s.ex with cursor := k.head.off, inHand := none, mem := t.ex.mem,
                           walking := s.ex.walking && s.ex.enable, again := s.ex.again && s.ex.enable } ∧
        readBytes t.ex.mem k.head.off 4 = [2#8, k.head.kind, k.head.source, r.code] ∧
        readBytes t.ex.mem (k.head.off + 0x20) 32 = padTo 32 bs ∧
        s.ex.StoresOutcome k.head.off t.ex

/-- RELEASE of N gives back the N oldest blocks; of 0, nothing; of more than are filled, all of them, with EXCESS set
(R189). -/
def Obligations.ReleaseGivesBack : Prop :=
  ∀ (s : State) (v : Word) (n : Nat), n = v.toNat % 256 →
    (n = 0 → s.ex.oldest < s.ex.count → exec (.releaseWrite v) s = .next s) ∧
    (n ≤ s.ex.filled → exec (.releaseWrite v) s = .next { s with ex := { s.ex with
      oldest := (s.ex.oldest + n) % s.ex.count, filled := s.ex.filled - n } }) ∧
    (s.ex.filled < n → exec (.releaseWrite v) s = .next { s with ex := { s.ex with
      oldest := s.ex.nextBlock, filled := 0, sticky := { s.ex.sticky with excess := true } } })

/-- The registers and the status area: a write to NOTICE clears exactly the sticky bits it holds as 1 and never REPORTS; a
write to NOTICE_MASK replaces the five enables; a write to IDENT, and every bit that the register table does not name, has
no effect (that the command for it carries a whole word, whose named bits act as the commands for them do, is log entry 33);
each register reads as its layout says (R166, R167); the status area shows the part's code, the cursor, the store, the lost
count, the clock and the frame number of the last boundary (R165, R180); and the notice line follows ENABLE and the unmasked
bits at once (R191, R192). -/
def Obligations.NoticeRegisters : Prop :=
  ∀ (s : State) (v : Word),
    (∃ t, exec (.noticeWrite v) s = .next t ∧ t = { s with ex := { s.ex with sticky := t.ex.sticky } } ∧
      t.ex.notice = s.ex.notice &&& ~~~(v.setWidth 5 &&& 0x1E#5)) ∧
    (∃ t, exec (.noticeMaskWrite v) s = .next t ∧ t = { s with ex := { s.ex with mask := t.ex.mask } } ∧
      t.ex.readReg .noticeMask = v &&& 0x1F#32) ∧
    exec (.registerWriteIgnored .ident v) s = .next s ∧
    (∀ p ∈ [(Reg.control, 0xF#32), (.release, 0xFF#32), (.notice, 0x1F#32), (.noticeMask, 0x1F#32)],
      exec (.registerWriteIgnored p.1 v) s = exec (.registerWriteIgnored p.1 (v &&& p.2)) s) ∧
    exec (.registerWriteIgnored .poke v) s = exec (.poke v) s ∧
    exec (.registerWriteIgnored .release v) s = exec (.releaseWrite v) s ∧
    exec (.registerWriteIgnored .notice v) s = exec (.noticeWrite v) s ∧
    exec (.registerWriteIgnored .noticeMask v) s = exec (.noticeMaskWrite v) s ∧
    (∀ s1 s2, exec (.blocks (v.extractLsb' 2 2)) s = .next s1 → exec (.enable (v.getLsbD 0)) s1 = .next s2 →
      exec (.registerWriteIgnored .control v) s = exec (.clear (v.getLsbD 1)) s2) ∧
    (s.ex.readReg .ident = 0x06400001#32 ∧ s.ex.readReg .poke = 0#32 ∧ s.ex.readReg .release = 0#32 ∧
      (s.ex.readReg .control).toNat = s.ex.enable.toNat + 4 * s.ex.blocksCode.toNat ∧
      (s.ex.readReg .notice).toNat = (decide (s.ex.threshold < s.ex.filled)).toNat + 2 * s.ex.sticky.urgent.toNat +
        4 * s.ex.sticky.chain.toNat + 8 * s.ex.sticky.excess.toNat + 16 * s.ex.sticky.lock.toNat) ∧
    (∀ a, a < 0x40 → s.readMem a =
      (little 2 0x0640 ++ [1#8, 0#8] ++ little 4 s.ex.cursor ++ little 2 s.ex.filled ++ little 2 s.ex.oldest ++
        little 2 s.ex.lost ++
        [match s.clock.lock with
         | .locked => 0#8
         | .acquiring => 1#8
         | .holdover => 2#8,
         match s.clock.ref with
         | .internal => 0#8
         | .c1 => 1#8
         | .c2 => 2#8
         | .external => 3#8
         | .nothing => 4#8] ++ little 4 s.ex.frameSnapshot.toNat).getD a 0#8) ∧
    (s.ex.notice.getLsbD 0 = true ↔ s.ex.threshold < s.ex.filled) ∧
    (s.ex.noticeLine = true ↔ s.ex.enable = true ∧ ∃ i, i < 5 ∧ s.ex.notice.getLsbD i = true ∧ s.ex.mask.getLsbD i = true)

/-- An exchange clear empties the walk, the store, the queue and the held snapshot, reloads the poll countdown and clears
the sticky notices, and leaves everything else; with a record in hand it waits for that take, and is made when REPLY_WRITE
has written that record's reply and DONE; a CLEAR bit of 0 asks for nothing (R167, R179). That EXCHANGE_CLEAR does what CLEAR
asks for is log entry 23. -/
def Obligations.ClearEmptiesExchange : Prop :=
  ∀ (s : State) (i : Instr) (cleared : Exchange), i = .clear true ∨ i = .exchangeClear →
    cleared = { s.ex with
      cursor := 0x40, walking := false, inHand := none, again := false, pollCountdown := s.ex.pollInterval
      clearAsked := false, oldest := 0, filled := 0, queue := [], lost := 0, firstLost := none, lastLost := none
      held := none, sticky := { urgent := false, chain := false, excess := false, lock := false } } →
    exec (.clear false) s = .next s ∧
    (s.ex.inHand.isSome = true → exec i s = .next { s with ex := { s.ex with clearAsked := true } }) ∧
    (s.ex.inHand = none → exec i s = .next { s with ex := cleared }) ∧
    ∀ (k : InHand) (r : Result) (bs : List Byte), s.ex.inHand = some k → k.ready = some (r, bs) →
      s.ex.clearAsked = true → bs.length ≤ 32 → Memory.wf s.ex.mem →
      ∃ t, exec .replyWrite s = .next t ∧ t = { s with ex := { cleared with mem := t.ex.mem } } ∧
        readBytes t.ex.mem k.head.off 4 = [2#8, k.head.kind, k.head.source, r.code] ∧
        readBytes t.ex.mem (k.head.off + 0x20) 32 = padTo 32 bs ∧
        s.ex.StoresOutcome k.head.off t.ex

/-- REPORT_WRITE writes one report into the next block while ENABLE is 1 and a block is free: a GAP if events were lost,
else the event at the head of the queue, else a held snapshot; the whole block is written, nothing else in memory changes,
and the filled count rises by one; otherwise nothing is written (R185, R186, R188). Each report has the kind, the body and
the codes of its layout (R181). -/
def Obligations.ReportWriteOrder : Prop :=
  (∀ (s : State) (x : Exchange), x = s.ex →
    (x.enable = false ∨ x.count ≤ x.filled → exec .reportWrite s = .next s) ∧
    (x.enable = true → x.filled < x.count → Memory.wf x.mem →
      (x.lost = 0 → x.queue = [] → x.held = none → exec .reportWrite s = .next s) ∧
      ∀ (kind : Byte) (stamp : Word) (body : List Byte) (y : Exchange),
        ((0 < x.lost ∧ kind = 14#8 ∧ stamp = x.firstLost.getD 0#32 ∧
            body = little 2 x.lost ++ [0#8, 0#8] ++ little 4 (x.lastLost.getD 0#32).toNat ∧
            y = { x with lost := 0, firstLost := none, lastLost := none }) ∨
          (x.lost = 0 ∧ ∃ q rest, x.queue = q :: rest ∧ kind = q.event.kind ∧ stamp = q.stamp ∧ body = q.event.body ∧
            y = { x with queue := rest }) ∨
          (x.lost = 0 ∧ x.queue = [] ∧ ∃ m : Snapshot, x.held = some m ∧ kind = 15#8 ∧ stamp = m.stamp ∧
            body = ((List.finRange 64).flatMap fun c : ChanId =>
              let e := m.entries[c]
              little 2 e.peak ++ [flags [e.clip, e.fault, e.guarded, e.suspect],
                flags [e.sat.a, e.sat.b, e.sat.c, e.sat.d, e.limited.a, e.limited.b, e.limited.c, e.limited.d]]) ∧
            y = { x with held := none })) →
        ∃ t, exec .reportWrite s = .next t ∧ t = { s with ex := { y with filled := x.filled + 1, mem := t.ex.mem } } ∧
          readBytes t.ex.mem (0x10000 + 512 * ((x.oldest + x.filled) % x.count)) 512 =
            padTo 512 ([kind, u8 x.unitId] ++ little 2 (8 + body.length : Nat) ++ little 4 stamp.toNat ++ body) ∧
          ∀ a, a < 0x10000 + 512 * ((x.oldest + x.filled) % x.count) ∨
              0x10000 + 512 * ((x.oldest + x.filled) % x.count) + 512 ≤ a →
            readByte t.ex.mem a = readByte x.mem a)) ∧
  (∀ (c : ChanId) (b : BoardId) (g : LaneId) (p : Port) (f : Feed) (on fault was held eq ext ph : Bool) (x : Setting)
      (e d : SentState) (i j n m k : Nat) (h : Half) (tag : Option Half) (lapp raw gain : Int) (sw sk : ChanMask)
      (who new : Option Feed) (why : OwnCause) (lim : LimitCause) (sup : PhantomState) (mis : MismatchCause)
      (l1 l2 : LinkState) (lk : LinkCause) (w : Option LatestWord) (err : LineError) (k1 k2 : LockState)
      (f1 f2 : HoldForm) (r1 r2 : ClockRef) (src : ClockSource) (ck : ClockCause),
    h = tag.getD 0#16 → ∀ r ∈ ([
      (.gainDone c x lapp tag n m, 1, little 1 c.val ++ little 1 x.analog ++ [flags [x.padIn], flags [tag.isSome]] ++
        little 2 lapp ++ little 2 h.toNat ++ little 2 n ++ little 2 m),
      (.gainCancelled c ⟨tag, x, n, why⟩ d.setting ph lapp, 2, little 1 c.val ++ little 1 x.analog ++
        [flags [x.padIn], flags [tag.isSome]] ++ little 2 h.toNat ++ little 1 d.setting.analog ++
        [flags [d.setting.padIn]] ++ little 2 lapp ++ [flags [ph], ownCauseByte why] ++ little 2 n),
      (.ownership c who new why tag, 3, little 1 c.val ++ [ownerByte who, ownerByte new, ownCauseByte why] ++
        little 2 h.toNat),
      (.guard c i j lapp raw gain n, 4, little 1 c.val ++ little 1 i ++ little 2 j ++ little 1 lapp ++ little 1 raw ++
        little 1 gain ++ [0#8] ++ little 2 n),
      (.guardFloor c i j lapp n, 5, little 1 c.val ++ little 1 i ++ little 2 j ++ little 1 lapp ++ little 1 n),
      (.limit c f on lim raw gain lapp, 6, little 1 c.val ++ [feedByte f, flags [on], limitCauseByte lim] ++
        little 2 raw ++ little 2 gain ++ little 2 lapp),
      (.phantom c sup fault x, 7, little 1 c.val ++ little 1 (phantomCode sup) ++ [flags [fault]] ++
        little 1 x.analog ++ [flags [x.padIn]]),
      (.swapDone tag n sw sk, 8, little 2 h.toNat ++ little 1 n ++ little 5 0 ++ little 8 sw.toNat ++
        little 8 sk.toNat),
      (.mismatch c mis e d was held eq, 9, little 1 c.val ++ [flags [mis == .stepAnswer]] ++
        little 1 e.setting.analog ++ [flags [e.setting.padIn], flags [e.phantom]] ++ little 1 d.setting.analog ++
        [flags [d.setting.padIn], flags [d.phantom], flags [was, held, eq]]),
      (.link p l1 l2 lk n w tag, 10, [portByte p, linkByte l1, linkByte l2, linkCauseByte lk] ++ little 1 n ++
        [flags [w.isSome, tag.isSome], (w.map LatestWord.id).getD 0#8, (w.map LatestWord.third).getD 0#8] ++
        little 2 h.toNat),
      (.preamp b (.stepFailed c err n), 11, [0#8] ++ little 1 b.val ++ little 1 c.val ++ [lineErrorByte err] ++
        little 1 n),
      (.preamp b (.offline err), 11, [1#8] ++ little 1 b.val ++ [0xFF#8, lineErrorByte err, 0#8]),
      (.preamp b .online, 11, [2#8] ++ little 1 b.val ++ [0xFF#8, 0#8, 0#8]),
      (.input g fault, 12, little 1 g.val ++ [flags [fault]]),
      (.clock k1 k2 f1 f2 r1 r2 src ck i j k l1 l2 ext tag, 13,
        [lockByte k1, formByte k1 f1, lockByte k2, formByte k2 f2, refByte r1, refByte r2, sourceByte src,
          clockCauseByte ck] ++ little 1 i ++ little 1 j ++ little 2 k ++
        [linkByte l1, linkByte l2, flags [ext], flags [tag.isSome]] ++ little 2 h.toNat)] :
        List (Event × Nat × List Byte)),
      r.1.kind.toNat = r.2.1 ∧ r.1.body = r.2.2) ∧
  [none, some Feed.a, some .b, some .c, some .d].map ownerByte = [0#8, 1#8, 2#8, 3#8, 4#8] ∧
  [Feed.a, .b, .c, .d].map feedByte = [0#8, 1#8, 2#8, 3#8] ∧
  [Port.a, .b, .c1, .c2, .d].map portByte = [0#8, 1#8, 2#8, 3#8, 4#8] ∧
  [OwnCause.claim, .takeover, .release, .feedOff, .scene].map ownCauseByte = [0#8, 1#8, 2#8, 3#8, 4#8] ∧
  [LimitCause.level, .request, .scene].map limitCauseByte = [0#8, 1#8, 2#8] ∧
  [PhantomState.off, .rampUp, .on, .rampDown, .faulted].map phantomCode = [0, 1, 2, 3, 4] ∧
  [LinkState.off, .seeking, .up, .degraded, .down].map linkByte = [0#8, 1#8, 2#8, 3#8, 4#8] ∧
  [LinkCause.enable, .disable, .validRun, .errorWindow, .cleanRun, .lost, .listen].map linkCauseByte =
    [0#8, 1#8, 2#8, 3#8, 4#8, 5#8, 6#8] ∧
  [LineError.framing, .check, .timeout].map lineErrorByte = [1#8, 2#8, 3#8] ∧
  [LockState.locked, .acquiring, .holdover].map lockByte = [0#8, 1#8, 2#8] ∧
  [ClockRef.internal, .c1, .c2, .external, .nothing].map refByte = [0#8, 1#8, 2#8, 3#8, 4#8] ∧
  [ClockSource.internal, .portC, .external].map sourceByte = [0#8, 1#8, 2#8] ∧
  [ClockCause.select, .locked, .timeout, .lostLock, .unfit, .resume, .retry, .found].map clockCauseByte =
    [0#8, 1#8, 2#8, 3#8, 4#8, 5#8, 6#8, 7#8] ∧
  [HoldForm.resume, .rest, .wait].map (formByte .holdover) = [0#8, 1#8, 2#8] ∧
  ∀ h, formByte .locked h = 0xFF#8 ∧ formByte .acquiring h = 0xFF#8

/-- An event joins the tail while the queue holds fewer than 32, and an urgent one sets URGENT; one that meets 32 is dropped
and counted, up to 65,535, sets URGENT whatever its class, and leaves its stamp as the last lost, and as the first lost
where none was lost before (R187). The urgent events are PREAMP, INPUT, CLOCK, and the LINK events from or to DOWN; every
other is NORMAL (section 10.2). That no report is written between the events of one step, so that they meet the queue one
after another, is log entry 43, here and in every statement in which a step hands over several. -/
def Obligations.EventJoinsOrIsLost : Prop :=
  ∀ (s : State) (e : Event),
    (s.ex.queue.length < 32 →
      s.raise e = { s with ex := { s.ex with
        queue := s.ex.queue ++ [⟨s.frame, e⟩]
        sticky := { s.ex.sticky with urgent := s.ex.sticky.urgent || e.urgent } } }) ∧
    (32 ≤ s.ex.queue.length →
      s.raise e = { s with ex := { s.ex with
        lost := min 65535 (s.ex.lost + 1)
        lastLost := some s.frame
        firstLost := if s.ex.lost = 0 then some s.frame else s.ex.firstLost
        sticky := { s.ex.sticky with urgent := true } } }) ∧
    (e.urgent = true ↔
      (∃ b k, e = .preamp b k) ∨ (∃ g f, e = .input g f) ∨
      (∃ k1 k2 f1 f2 r1 r2 src k i j n l1 l2 ext tag, e = .clock k1 k2 f1 f2 r1 r2 src k i j n l1 l2 ext tag) ∨
      ∃ p l1 l2 k n w tag, e = .link p l1 l2 k n w tag ∧ (l1 = .down ∨ l2 = .down))

/-! ### The requests (sections 3.4, 3.5, 4.8, 5.3, 6.2, 6.3, 8.6, 9.4) -/

/-- The common checks in their order: a kind outside 1 to 17, then the channel, the feed and the source that the kind uses,
then a feed's console acting on another feed; each refused record completes with its code, no reply, and nothing else
changed (R174, R57 step 1). The result codes are those of R175. How the record is placed and reached is log entry 2, here
and in every request statement below. -/
def Obligations.CommonChecksRefuse : Prop :=
  (∀ (s : State) (h : ReqHead) (b1 b2 : Byte) (n1 n2 n3 n4 : Half) (w : Word) (m : ChanMask), s.Ready h →
    (∀ k : Byte, k = 0#8 ∨ 17 < k.toNat → Served (.badKind h k) s s h k .badKind none) ∧
    ∀ p ∈ ([(.setAnalog h n1, 1#8, true, false), (.setPad h b1, 2#8, true, false), (.setPhantom h b1, 3#8, true, false),
        (.readChannel h, 4#8, true, false), (.resync h, 5#8, true, false), (.setGuard h b1 n1 n2 n3 n4, 6#8, true, false),
        (.setTrim h n1, 7#8, true, true), (.setMode h b1, 8#8, true, true), (.setFlags h b1 b2, 9#8, true, true),
        (.claim h, 10#8, true, true), (.release h, 11#8, true, true), (.setFeed h b1 b2, 12#8, false, true),
        (.loadSlotmap h w, 13#8, false, true), (.loadShadow h w b1 b2, 14#8, false, false), (.swap h m, 15#8, false, false),
        (.setClock h b1, 16#8, false, false), (.setExchange h b1 n1 n2 n3 b2, 17#8, false, false)] :
        List (Instr × Byte × Bool × Bool)),
      (p.2.2.1 = true → 64 ≤ h.channel.toNat → Served p.1 s s h p.2.1 .badChannel none) ∧
      ((p.2.2.1 = true → h.channel.toNat < 64) →
        (p.2.2.2 = true → 4 ≤ h.feed.toNat → Served p.1 s s h p.2.1 .badFeed none) ∧
        ((p.2.2.2 = true → h.feed.toNat < 4) →
          (h.source.toNat = 0 ∨ 5 < h.source.toNat → Served p.1 s s h p.2.1 .badSource none) ∧
          (p.2.2.2 = true → 1 ≤ h.source.toNat → h.source.toNat ≤ 4 → h.source.toNat ≠ h.feed.toNat + 1 →
            Served p.1 s s h p.2.1 .badSource none)))) ∧
  [Result.ok, .clamped, .asTrim, .owned, .held, .notOwner, .isOwner, .feedOff, .faulted, .busy, .badKind, .badChannel,
    .badFeed, .badSource, .badPointer, .badArg].map Result.code =
    [0#8, 1#8, 2#8, 3#8, 4#8, 5#8, 6#8, 7#8, 8#8, 9#8, 10#8, 11#8, 12#8, 13#8, 14#8, 15#8]

/-- Every request command completes, whatever its record holds and wherever the walk stands, and leaves every byte outside
the record and outside the next field it is linked by as it was, and the record's tag, channel, feed, next and arguments as
the controller wrote them (R171, R172); a SET_EXCHANGE whose take closes a meter interval may write its report (log entry
24). While the walk does not stand at the end of the chain the record waits, OFFERED, linked and with its arguments, and
nothing but memory changes (R169, R171, R173; that the controller links a record at the end of the chain is the model's
choice, log entry 2). -/
def Obligations.RequestsWaitOrStayInside : Prop :=
  ∀ (s : State) (h : ReqHead) (k b1 b2 : Byte) (n1 n2 n3 n4 : Half) (w : Word) (m : ChanMask),
    s.ex.WalkLaw → h.wf = true →
    ∀ p ∈ ([(.badKind h k, k, []), (.setAnalog h n1, 1#8, halfBytes n1), (.setPad h b1, 2#8, [b1]),
        (.setPhantom h b1, 3#8, [b1]), (.readChannel h, 4#8, []), (.resync h, 5#8, []),
        (.setGuard h b1 n1 n2 n3 n4, 6#8,
          [b1, 0#8] ++ halfBytes n1 ++ halfBytes n2 ++ halfBytes n3 ++ halfBytes n4),
        (.setTrim h n1, 7#8, halfBytes n1), (.setMode h b1, 8#8, [b1]), (.setFlags h b1 b2, 9#8, [b1, b2]),
        (.claim h, 10#8, []), (.release h, 11#8, []), (.setFeed h b1 b2, 12#8, [b1, b2]),
        (.loadSlotmap h w, 13#8, wordBytes w), (.loadShadow h w b1 b2, 14#8, wordBytes w ++ [b1, b2]),
        (.swap h m, 15#8, maskBytes m), (.setClock h b1, 16#8, [b1]),
        (.setExchange h b1 n1 n2 n3 b2, 17#8, [b1, 0#8] ++ halfBytes n1 ++ halfBytes n2 ++ halfBytes n3 ++ [b2])] :
        List (Instr × Byte × List Byte)),
      (∃ t, exec p.1 s = .next t ∧ readWord t.ex.mem (s.ex.tail + 8) = h.off ∧
        (∀ a, a < 0x10000 ∨ p.2.1 ≠ 17#8 ∨ s.ex.meterCountdown ≠ 0 →
          (a < h.off.toNat ∨ h.off.toNat + 64 ≤ a) → (a < s.ex.tail + 8 ∨ s.ex.tail + 12 ≤ a) →
          readByte t.ex.mem a = readByte s.ex.mem a) ∧
        ∀ i a, i < 28 → a = h.off.toNat + 4 + i → (a < s.ex.tail + 8 ∨ s.ex.tail + 12 ≤ a) →
          readByte t.ex.mem a =
            (little 2 h.tag.toNat ++ [h.channel, h.feed] ++ List.replicate 8 0#8 ++ padTo 16 p.2.2).getD i 0#8) ∧
      (s.ex.atTail = false → ∃ t, exec p.1 s = .next t ∧ t = { s with ex := { s.ex with mem := t.ex.mem } } ∧
        readBytes t.ex.mem h.off.toNat 8 = [1#8, p.2.1, h.source, 0#8] ++ halfBytes h.tag ++ [h.channel, h.feed] ∧
        readBytes t.ex.mem (h.off.toNat + 0x10) 16 = padTo 16 p.2.2 ∧
        readWord t.ex.mem (s.ex.tail + 8) = h.off)

/-- SET_ANALOG and SET_PAD by the owner, or by the panel on an unowned channel, set the target: the code is brought onto
the grid of analog codes, a remainder of 3 rounding down, and CLAMPED says so; the pad's value replaces the pad alone
(R54, R93, R94). How the record is placed is log entry 2. -/
def Obligations.AuthorisedRequestsRetarget : Prop :=
  ∀ (s : State) (h : ReqHead) (c : ChanId) (src : Source), s.Ready h → decodeChannel h.channel = some c →
    decodeSource h.source = some src →
    ((src = .panel ∧ (s.chan c).owner = none) ∨ ∃ f, src = .feed f ∧ (s.chan c).owner = some f) →
    (∀ (code : Half) (a : Nat), a % 6 = 0 →
      ((code.toNat ≤ 240 ∧ a ≤ code.toNat + 2 ∧ code.toNat ≤ a + 3) ∨ (240 < code.toNat ∧ a = 240)) →
      ∀ u, u = s.putChan c ((s.chan c).requestTarget c (some h.tag) { (s.chan c).tgt with analog := (a : Int) }) →
      Served (.setAnalog h code) s u h 1#8 (if a = code.toNat then .ok else .clamped) (some (u.preampReply c))) ∧
    ∀ v : Byte, v.toNat ≤ 1 →
      ∀ u, u = s.putChan c ((s.chan c).requestTarget c (some h.tag) { (s.chan c).tgt with padIn := v == 1#8 }) →
      Served (.setPad h v) s u h 2#8 .ok (some (u.preampReply c))

/-- SET_ANALOG by a feed that does not own the channel moves that feed's trim by the rounded code less the target code,
clamped, and completes AS_TRIM; a changed trim waits for its first new sample, and the other feeds' crosspoints and the
preamp target stay as they are; the request becomes the cause of a flag whose raw gain it moves across a clamp bound, unless
a swap has come before (R55, R58, R69, R124). How the record is placed is log entry 2, that a request which changes no trim
replies at its take with the values that stand then log entry 21, what moves a flag log entry 7. -/
def Obligations.UnownedAnalogBecomesTrim : Prop :=
  ∀ (s : State) (h : ReqHead) (c : ChanId) (f : Feed) (code : Half) (a : Nat) (wanted trim raw : Int) (x : Xp), s.Ready h →
    decodeChannel h.channel = some c → decodeSource h.source = some (.feed f) → (s.chan c).owner ≠ some f →
    a % 6 = 0 → ((code.toNat ≤ 240 ∧ a ≤ code.toNat + 2 ∧ code.toNat ≤ a + 3) ∨ (240 < code.toNat ∧ a = 240)) →
    x = s.xp c f → wanted = x.trim + (a - (s.chan c).tgt.analog) → trim = max (-240) (min 96 wanted) →
    raw = x.raw (s.chan c).level →
    ∀ r : XpReply, r = ⟨c, f, none, a != code.toNat, trim != wanted, none⟩ →
    (trim = x.trim → Served (.setAnalog h code) s s h 1#8 .asTrim (some (s.xpReply r))) ∧
    (trim ≠ x.trim → ∃ y : Xp,
      y = { x with
        trim := trim, continuity := y.continuity
        cause := if x.cause = .scene ∨ outOfRange raw = outOfRange (raw + trim - x.trim) then x.cause else .request } ∧
      Waits (.setAnalog h code) s (s.setXp c f y) h 1#8 .asTrim r)

/-- The refusals of the preamp and guard requests: a value outside its set is BAD_ARG, a source without authority is OWNED,
and phantom on is FAULTED while the supply has failed; each writes its reply and changes nothing else (R54, R93, R94, R95,
R105). That BAD_ARG writes the preamp reply too is log entry 21. -/
def Obligations.PreampRefusalsChangeNothing : Prop :=
  ∀ (s : State) (h : ReqHead) (c : ChanId) (src : Source), s.Ready h → decodeChannel h.channel = some c →
    decodeSource h.source = some src →
    (∀ code, src = .panel → (s.chan c).owner ≠ none →
      Served (.setAnalog h code) s s h 1#8 .owned (some (s.preampReply c))) ∧
    (∀ v : Byte, 1 < v.toNat → Served (.setPad h v) s s h 2#8 .badArg (some (s.preampReply c)) ∧
      Served (.setPhantom h v) s s h 3#8 .badArg (some (s.preampReply c)) ∧
      ∀ n1 n2 n3 n4, Served (.setGuard h v n1 n2 n3 n4) s s h 6#8 .badArg (some (s.guardReply c false))) ∧
    (∀ v : Byte, v.toNat ≤ 1 →
      ((src = .panel ∧ (s.chan c).owner ≠ none) ∨ (∃ f, src = .feed f ∧ (s.chan c).owner ≠ some f) →
        Served (.setPad h v) s s h 2#8 .owned (some (s.preampReply c))) ∧
      (∀ f, src = .feed f → (s.chan c).owner ≠ some f →
        Served (.setPhantom h v) s s h 3#8 .owned (some (s.preampReply c)) ∧
        ∀ n1 n2 n3 n4, Served (.setGuard h v n1 n2 n3 n4) s s h 6#8 .owned (some (s.guardReply c false))) ∧
      (v = 1#8 → (src = .panel ∨ ∃ f, src = .feed f ∧ (s.chan c).owner = some f) → (s.chan c).phantom = .faulted →
        Served (.setPhantom h v) s s h 3#8 .faulted (some (s.preampReply c))))

/-- SET_PHANTOM by the owner or the panel sets the phantom target at once, and phantom off acknowledges a supply that has
failed; READ_CHANNEL and RESYNC may come from any source: the one changes nothing, the other sets the board's readback
request to ASKING, dropping a deferral, and replies with the board's record before it (R48, R54, R95, R96), in which a
deferral that a boundary has run out is ASKING already (R40; log entry 24). The preamp reply and the reply of READ_CHANNEL
have the layouts of R180, their codes those of section 9.7 and of the statement on reports; what READ_CHANNEL reports of the
samples is what the last one used (R96). How the record is placed is log entry 2. -/
def Obligations.PhantomReadAndResync : Prop :=
  (∀ (s : State) (h : ReqHead) (c : ChanId) (src : Source), s.Ready h → decodeChannel h.channel = some c →
    decodeSource h.source = some src →
    (∀ v : Byte, (src = .panel ∨ ∃ f, src = .feed f ∧ (s.chan c).owner = some f) → v.toNat ≤ 1 →
      ¬(v = 1#8 ∧ (s.chan c).phantom = .faulted) →
      ∀ u, u = s.setChan c { s.chan c with
          phantomTgt := v == 1#8, phantomTgtSet := true,
          phantom := if (s.chan c).phantom = .faulted then .off else (s.chan c).phantom } →
      Served (.setPhantom h v) s u h 3#8 .ok (some (u.preampReply c))) ∧
    Served (.readChannel h) s s h 4#8 .ok (some (s.channelReply c)) ∧
    ∀ x : Board, x = (if (s.board (boardOf c)).request = .deferred ∧ (s.board (boardOf c)).countdown = 0 then
        { s.board (boardOf c) with request := .asking } else s.board (boardOf c)) →
      Served (.resync h) s { s with boards := upd s.boards (boardOf c) { x with request := .asking, countdown := 0 } } h
        5#8 .ok
        (some ([u8 (boardOf c).val, flagByte x.offline, u8 x.failures,
          if x.request = .deferred then 2#8 else if x.request = .asking then 1#8 else 0#8] ++
            u16 (if x.request = .deferred then x.countdown else 0)))) ∧
  (∀ (s : State) (c : ChanId) (o : Chan) (v : SampleView), o = s.chan c → v = s.views[c] →
    s.preampReply c = [ownerByte o.owner] ++ little 1 o.ack.analog ++
      [flags [o.ack.padIn, o.ackPhantom, o.tgt.padIn, o.phantomTgt, o.startup]] ++ little 1 o.tgt.analog ++
      little 2 (o.app.analog + if o.app.padIn = true then -80 else 0) ++ [opByte o.op] ++ little 1 (phantomCode o.phantom) ∧
    s.channelReply c = little 1 o.ack.analog ++
      [flags [o.ack.padIn, o.ackPhantom, v.app.padIn, o.tgt.padIn, o.phantomTgt, o.opened, o.urgent, o.startup]] ++
      little 1 v.app.analog ++ little 1 o.tgt.analog ++
      little 2 (v.app.analog + if v.app.padIn = true then -80 else 0) ++ [opByte o.op] ++
      little 1 (phantomCode o.phantom) ++ little 1 o.pend.length ++ [ownerByte o.owner] ++
      ([Feed.a, .b, .c, .d].map fun f => match v.modes.get f with
        | .follow => flags [false, false, false, (s.xp c f).limited]
        | .track _ => flags [true, false, true, (s.xp c f).limited]
        | .owner => flags [false, true, false, (s.xp c f).limited]) ++
      [0#8, 0#8] ++ ([Feed.a, .b, .c, .d].flatMap fun f => little 2 (v.trims.get f)) ++
      [Feed.a, .b, .c, .d].flatMap fun f => match v.modes.get f with
        | .track r => little 2 r
        | .follow | .owner => little 2 0) ∧
  [OpState.idle, .zcWait, .lineWait, .ackWait, .settling, .suspect].map opByte = [0#8, 1#8, 2#8, 3#8, 4#8, 5#8] ∧
  ∀ (s t : State) (c : ChanId), s.calmBefore = true → exec .samplePeriod s = .next t →
    t.views[c].app = (s.chan c).app ∧
      ∀ f, t.views[c].modes.get f = (s.xp c f).mode ∧ t.views[c].trims.get f = (s.xp c f).trim

/-- SET_GUARD by the owner or the panel stores the enable and the four numbers, each brought into its range, with CLAMPED if
one was moved; turning an enabled guard off clears its counters, and otherwise they stay (R105, R106); the reply has the
layout of R180, its last three items but the owner only where the request was served. How the record is placed is log entry
2. -/
def Obligations.SetGuardStoresRecord : Prop :=
  (∀ (s : State) (h : ReqHead) (c : ChanId) (src : Source) (e : Byte) (threshold hold floor rest : Half) (fl : Nat),
    s.Ready h → decodeChannel h.channel = some c → decodeSource h.source = some src →
    (src = .panel ∨ ∃ f, src = .feed f ∧ (s.chan c).owner = some f) → e.toNat ≤ 1 →
    fl % 6 = 0 → ((floor.toNat ≤ 240 ∧ fl ≤ floor.toNat + 2 ∧ floor.toNat ≤ fl + 3) ∨ (240 < floor.toNat ∧ fl = 240)) →
    ∀ g : Guard, g = { s.guard c with
        enable := e == 1#8, threshold := max 1 (min 32768 threshold.toNat), hold := max 1 (min 32 hold.toNat),
        floor := fl, rest := max 10 (min 1000 rest.toNat) } →
    ∀ u, u = s.setGuard c (if (s.guard c).enable = true ∧ e = 0#8
        then { g with overCount := 0, restLeft := 0, floorReported := false } else g) →
    Served (.setGuard h e threshold hold floor rest) s u h 6#8
      (if g.threshold = threshold.toNat ∧ g.hold = hold.toNat ∧ fl = floor.toNat ∧ g.rest = rest.toNat then .ok
        else .clamped) (some (u.guardReply c true))) ∧
  ∀ (s : State) (c : ChanId) (served : Bool) (g : Guard), g = s.guard c →
    s.guardReply c served = [flags [g.enable]] ++ little 1 g.hold ++ little 2 g.threshold ++ little 2 g.rest ++
      little 1 g.floor ++ little 1 g.overCount ++ little 2 g.restLeft ++ [flags [g.floorReported]] ++
      (if served = true then little 1 (s.chan c).app.analog ++ little 1 (s.chan c).tgt.analog ++
        [flags [(s.chan c).urgent]] else [0#8, 0#8, 0#8]) ++ [ownerByte (s.chan c).owner]

/-- SET_TRIM stores its trim clamped to −240 to +96, SET_FLAGS keeps, clears or sets mute and invert; a change waits for its
first new sample, a request that changes nothing completes at once, and a selector above 2 is BAD_ARG; a trim is the cause
of a flag whose raw gain it moves across a clamp bound, unless a swap has come before (R58, R63, R64, R69, R124). The reply
of every crosspoint request has the layout of R180. How the record is placed is log entry 2, that a request which changes
nothing replies with the values at its take log entry 21, what moves a flag log entry 7. -/
def Obligations.SetTrimAndFlags : Prop :=
  (∀ (s : State) (h : ReqHead) (c : ChanId) (f : Feed) (src : Source) (x : Xp) (raw : Int) (r : XpReply), s.Ready h →
    decodeChannel h.channel = some c → decodeFeed h.feed = some f → decodeSource h.source = some src →
    sourceAllows src f = true → x = s.xp c f → raw = x.raw (s.chan c).level → r = ⟨c, f, none, false, false, none⟩ →
    (∀ (t : Half) (trim : Int) (res : Result), trim = max (-240) (min 96 t.toInt) →
      res = (if trim = t.toInt then .ok else .clamped) →
      (trim = x.trim → Served (.setTrim h t) s s h 7#8 res (some (s.xpReply r))) ∧
      (trim ≠ x.trim → ∃ y : Xp,
        y = { x with
          trim := trim, continuity := y.continuity
          cause := if x.cause = .scene ∨ outOfRange raw = outOfRange (raw + trim - x.trim) then x.cause else .request } ∧
        Waits (.setTrim h t) s (s.setXp c f y) h 7#8 res r)) ∧
    ∀ mute invert : Byte,
      (2 < mute.toNat ∨ 2 < invert.toNat → Served (.setFlags h mute invert) s s h 9#8 .badArg none) ∧
      (mute.toNat ≤ 2 → invert.toNat ≤ 2 →
        ∀ y : Xp, y = { x with
            mute := if mute = 0#8 then x.mute else decide (mute = 2#8),
            invert := if invert = 0#8 then x.invert else decide (invert = 2#8) } →
        (y = x → Served (.setFlags h mute invert) s s h 9#8 .ok (some (s.xpReply r))) ∧
        (y ≠ x → Waits (.setFlags h mute invert) s (s.setXp c f y) h 9#8 .ok r))) ∧
  ∀ (s : State) (r : XpReply) (x : Xp) (lapp ref raw : Int) (mode : Byte) (tracks : Bool), x = s.xp r.c r.f →
    lapp = (s.chan r.c).level → raw = x.raw lapp →
    ((x.mode = .follow ∧ mode = 0#8 ∧ tracks = false ∧ ref = 0) ∨ (x.mode = .track ref ∧ mode = 1#8 ∧ tracks = true) ∨
      (x.mode = .owner ∧ mode = 2#8 ∧ tracks = false ∧ ref = 0)) →
    s.xpReply r = [ownerByte (s.chan r.c).owner, ownerByte r.former, mode,
        flags [x.mute, x.invert, decide (raw < -240) || decide (96 < raw), tracks, r.codeAdjusted, r.trimClamped]] ++
      little 2 lapp ++ little 2 x.trim ++ little 2 ref ++ little 2 raw ++ little 2 (max (-240) (min 96 raw))

/-- SET_MODE: TRACK takes the applied level as reference and keeps the trim; FOLLOW folds trim plus reference less applied
level into the trim, clamped, and its reply waits with that fold, except that a TRACK which no sample has used yet only
leaves again; the owner's crosspoint is IS_OWNER, a mode already in force changes nothing, and a value above 1 is BAD_ARG; a
fold that the clamp cuts is the cause of the flag it moves, unless a swap has come before (R51, R52, R59, R69, R124). How
the record is placed is log entry 2, how continuity is kept and what moves a flag log entry 7, that a mode already in force
replies with the values at its take log entry 21. -/
def Obligations.SetModeKeepsTheLevel : Prop :=
  ∀ (s : State) (h : ReqHead) (c : ChanId) (f : Feed) (src : Source) (v : Byte) (x : Xp) (r : XpReply), s.Ready h →
    decodeChannel h.channel = some c → decodeFeed h.feed = some f → decodeSource h.source = some src →
    sourceAllows src f = true → x = s.xp c f → r = ⟨c, f, none, false, false, none⟩ →
    (1 < v.toNat → Served (.setMode h v) s s h 8#8 .badArg none) ∧
    (v.toNat ≤ 1 → x.mode = .owner → Served (.setMode h v) s s h 8#8 .isOwner (some (s.xpReply r))) ∧
    (x.mode = .follow → Served (.setMode h 0#8) s s h 8#8 .ok (some (s.xpReply r)) ∧
      Waits (.setMode h 1#8) s (s.setXp c f { x with mode := .track (s.chan c).level, continuity := .entered }) h 8#8 .ok r) ∧
    ∀ ref, x.mode = .track ref → Served (.setMode h 1#8) s s h 8#8 .ok (some (s.xpReply r)) ∧
      (x.continuity = .entered →
        Waits (.setMode h 0#8) s (s.setXp c f { x with mode := .follow, continuity := .settled }) h 8#8 .ok r) ∧
      (x.continuity ≠ .entered → ∀ raw, raw = x.trim + ref - (s.chan c).level →
        Waits (.setMode h 0#8) s
          (s.setXp c f { x with
            mode := .follow, trim := max (-240) (min 96 raw), continuity := .folded x.trim ref
            cause := if x.cause ≠ .scene ∧ (raw < -240 ∨ 96 < raw) then .request else x.cause }) h 8#8 .ok
          { r with fold := some (x.trim, ref) })

/-- CLAIM makes an enabled feed the owner of a free channel, or, for the senior feed, of a channel another feed owns, whose
crosspoint then enters TRACK at the applied level; the claimant's own crosspoint leaves TRACK by the fold, with which its
reply waits; RELEASE gives the owner's channel up in the same way; each hands over OWNERSHIP and then cancels the operation
in flight. The refusals FEED_OFF, HELD and NOT_OWNER, and a CLAIM by the owner, change nothing (R51, R52, R56, R60, R61,
R62, R69, R81, R124). How the record is placed is log entry 2, how continuity is kept, from a TRACK that no sample has used
as from any other, and what moves a flag log entry 7, that a CLAIM by the owner replies with the values at its take log
entry 21. -/
def Obligations.ClaimAndRelease : Prop :=
  ∀ (s : State) (h : ReqHead) (c : ChanId) (f : Feed) (src : Source) (x : Xp) (fold : Option (Int × Int)) (r : XpReply),
    s.Ready h → decodeChannel h.channel = some c → decodeFeed h.feed = some f → decodeSource h.source = some src →
    sourceAllows src f = true → x = s.xp c f → r = ⟨c, f, (s.chan c).owner, false, false, none⟩ →
    (∀ ref, x.mode = .track ref → x.continuity ≠ .entered → fold = some (x.trim, ref)) →
    ((∀ ref, x.mode ≠ .track ref) ∨ x.continuity = .entered → fold = none) →
    (s.feedOn.get f = false → Served (.claim h) s s h 10#8 .feedOff (some (s.xpReply r))) ∧
    (s.feedOn.get f = true → (s.chan c).owner = some f → Served (.claim h) s s h 10#8 .ok (some (s.xpReply r))) ∧
    (∀ e, s.feedOn.get f = true → (s.chan c).owner = some e → e ≠ f → s.senior ≠ some f →
      Served (.claim h) s s h 10#8 .held (some (s.xpReply r))) ∧
    ((s.chan c).owner ≠ some f → Served (.release h) s s h 11#8 .notOwner (some (s.xpReply r))) ∧
    (s.feedOn.get f = true → ((s.chan c).owner = none ∨ ((s.chan c).owner ≠ some f ∧ s.senior = some f)) →
      ∀ k : OwnCause, k = (if (s.chan c).owner = none then .claim else .takeover) →
      ∃ u, Waits (.claim h) s u h 10#8 .ok { r with fold := fold } ∧
        u = { s with
          chans := upd s.chans c { ((s.chan c).cancel c k).1 with owner := some f },
          xps := u.xps,
          ex := s.ex.joinAll s.frame
            (.ownership c (s.chan c).owner (some f) k (some h.tag) :: ((s.chan c).cancel c k).2) } ∧
        (∀ d, d ≠ c → u.xps[d] = s.xps[d]) ∧
        (∀ e, e ≠ f → (s.chan c).owner ≠ some e → u.xp c e = s.xp c e) ∧
        (∀ e, (s.chan c).owner = some e → (s.xp c e).mode = .owner →
          u.xp c e = { s.xp c e with mode := .track (s.chan c).level, continuity := .entered }) ∧
        (fold = none → u.xp c f = { x with
          mode := .owner, continuity := if x.continuity = .entered then .settled else x.continuity }) ∧
        ∀ trim ref raw, fold = some (trim, ref) → raw = trim + ref - (s.chan c).level →
          u.xp c f = { x with
            mode := .owner, trim := max (-240) (min 96 raw), continuity := .folded trim ref
            cause := if x.cause ≠ .scene ∧ (raw < -240 ∨ 96 < raw) then .request else x.cause }) ∧
    ((s.chan c).owner = some f → x.mode = .owner →
      Waits (.release h) s
        { s with
          chans := upd s.chans c { ((s.chan c).cancel c .release).1 with owner := none },
          xps := upd s.xps c (s.xps[c].set f { x with mode := .track (s.chan c).level, continuity := .entered }),
          ex := s.ex.joinAll s.frame
            (.ownership c (some f) none .release (some h.tag) :: ((s.chan c).cancel c .release).2) } h 11#8 .ok r)

/-- SET_FEED keeps, makes or clears the senior feed, and turns its feed off or on: off takes its ports to OFF and releases
every channel the feed owns, each former owner's crosspoint entering TRACK; on takes its ports to SEEKING. The LINK events
of the ports come first, in port order, and then, channel by channel, OWNERSHIP and what the change of owner cancels. The
reply lists the channels that were released; a selector above 2 is BAD_ARG (R65, R66, R67, R81, R137, R138, R148). How the
record is placed is log entry 2, how continuity is kept log entry 7, the order of these events log entry 15, that BAD_ARG
leaves the reply log entry 21. That all these events join before any report is written is log entry 43. -/
def Obligations.SetFeedTurnsFeed : Prop :=
  ∀ (s : State) (h : ReqHead) (f : Feed) (src : Source) (enable senior : Byte), s.Ready h → s.OwnerLaw →
    decodeFeed h.feed = some f → decodeSource h.source = some src → sourceAllows src f = true →
    (2 < enable.toNat ∨ 2 < senior.toNat → Served (.setFeed h enable senior) s s h 12#8 .badArg none) ∧
    (enable.toNat ≤ 2 → senior.toNat ≤ 2 → ∀ off on : Bool,
      off = (enable == 1#8 && s.feedOn.get f) → on = (enable == 2#8 && !s.feedOn.get f) →
      ∃ (u : State) (released : ChanMask),
        Served (.setFeed h enable senior) s u h 12#8 .ok (some
          ([if u.feedOn.get f = true then 1#8 else 0#8, ownerByte u.senior, 0#8, 0#8, 0#8, 0#8, 0#8, 0#8] ++
            maskBytes released)) ∧
        (∀ c : ChanId, released.getLsbD c.val = (off && decide ((s.chan c).owner = some f))) ∧
        u = { s with senior := u.senior, feedOn := u.feedOn, chans := u.chans, xps := u.xps, ports := u.ports, ex := u.ex } ∧
        (∀ e, u.senior = some e ↔ (senior = 1#8 ∧ e = f) ∨ (senior ≠ 1#8 ∧ s.senior = some e ∧ ¬(senior = 2#8 ∧ e = f))) ∧
        u.feedOn = s.feedOn.set f ((s.feedOn.get f && !off) || on) ∧
        (∀ p, portFeed p ≠ f ∨ (off = false ∧ on = false) → u.port p = s.port p) ∧
        (∀ p, portFeed p = f → off = true ∨ on = true → u.port p =
          { state := if on then .seeking else .off, validRun := 0, invalidRun := 0, window := [], cleanRun := 0,
            lastSeq := none, latest := none, judging := false, word := none, timing := false }) ∧
        (off = false → on = false → u.ex = s.ex) ∧
        (∀ ports : List Port, ports = ([Port.a, .b, .c1, .c2, .d].filter fun p => portFeed p == f) →
          (on = true → u.ex = s.ex.joinAll s.frame
            (ports.map fun p => .link p (s.port p).state .seeking .enable 0 none (some h.tag))) ∧
          (off = true → u.ex = s.ex.joinAll s.frame
            ((ports.flatMap fun p => if (s.port p).state = .off then []
                else [.link p (s.port p).state .off .disable ((s.port p).window.countP id) (s.port p).latest (some h.tag)]) ++
              (List.finRange 64).flatMap fun c => if (s.chan c).owner = some f
                then .ownership c (some f) none .feedOff (some h.tag) :: ((s.chan c).cancel c .feedOff).2 else []))) ∧
        ∀ c : ChanId,
          (¬(off = true ∧ (s.chan c).owner = some f) → u.chan c = s.chan c ∧ u.xps[c] = s.xps[c]) ∧
          (off = true → (s.chan c).owner = some f →
            u.chan c = { ((s.chan c).cancel c .feedOff).1 with owner := none } ∧
            ∀ e, u.xp c e = if e = f
              then { s.xp c f with mode := .track (s.chan c).level, continuity := .entered }
              else s.xp c e))

/-- LOAD_SLOTMAP reads 64 bytes of the request window: a bad pointer is BAD_POINTER, a byte that is neither a channel nor
0xFF is BAD_ARG, and otherwise the feed's map becomes the bytes read, with the counts of empty slots and of mapped channels
and the mapped mask as reply (R68). How the record is placed is log entry 2, that its refusals leave the reply log
entry 21. -/
def Obligations.LoadSlotmapReplacesMap : Prop :=
  ∀ (s : State) (h : ReqHead) (f : Feed) (src : Source) (map : Word) (m : List Host.Cell), s.Ready h →
    decodeFeed h.feed = some f → decodeSource h.source = some src → sourceAllows src f = true →
    m = (s.ex.offer h 13#8 (wordBytes map)).mem →
    (¬(map.toNat % 64 = 0 ∧ 0x80 ≤ map.toNat ∧ map.toNat + 64 ≤ 0x10000) →
      Served (.loadSlotmap h map) s s h 13#8 .badPointer none) ∧
    (map.toNat % 64 = 0 → 0x80 ≤ map.toNat → map.toNat + 64 ≤ 0x10000 →
      ((∃ i, i < 64 ∧ 64 ≤ (readByte m (map.toNat + i)).toNat ∧ readByte m (map.toNat + i) ≠ 0xFF#8) →
        Served (.loadSlotmap h map) s s h 13#8 .badArg none) ∧
      ∀ v : Vector (Option ChanId) 64,
        (∀ i : SlotId, (readByte m (map.toNat + i.val) = 0xFF#8 ∧ v[i] = none) ∨
          ∃ c : ChanId, (readByte m (map.toNat + i.val)).toNat = c.val ∧ v[i] = some c) →
        ∃ mask : ChanMask, (∀ c : ChanId, mask.getLsbD c.val = true ↔ ∃ i : SlotId, v[i] = some c) ∧
          Served (.loadSlotmap h map) s { s with slots := s.slots.set f v } h 13#8 .ok (some
            ([u8 ((indices 64).countP fun i => v[i] == none),
              u8 ((indices 64).countP fun c : ChanId => mask.getLsbD c.val), 0#8, 0#8, 0#8, 0#8, 0#8, 0#8] ++
              maskBytes mask)))

/-- LOAD_SHADOW checks in order the run, the table's offset, the pending mask and the entries, and refuses without a change;
otherwise every channel of the run takes its entry, of which a reply bit says that a value was brought into range, and
becomes loaded; the other channels' shadow records stay as they are (R114, R117, R118, R130). An entry has the layout of
R182, its code brought onto the grid and its trims into range (R116). How the record is placed is log entry 2, which entries
the clamped mask of a refusal covers log entry 22. -/
def Obligations.LoadShadowFillsRun : Prop :=
  (∀ (s : State) (h : ReqHead) (src : Source) (table : Word) (first count : Byte) (m : List Host.Cell)
      (run : ChanId → Prop) (zero : List Byte), s.Ready h → decodeSource h.source = some src →
    m = (s.ex.offer h 14#8 (wordBytes table ++ [first, count])).mem →
    run = (fun c => first.toNat ≤ c.val ∧ c.val < first.toNat + count.toNat) → zero = maskBytes 0#64 →
    (count = 0#8 ∨ 64 < first.toNat + count.toNat →
      Served (.loadShadow h table first count) s s h 14#8 .badArg none) ∧
    (count ≠ 0#8 → first.toNat + count.toNat ≤ 64 →
      (¬(table.toNat % 64 = 0 ∧ 0x80 ≤ table.toNat ∧ table.toNat + 1024 ≤ 0x10000) →
        Served (.loadShadow h table first count) s s h 14#8 .badPointer
          (some (maskBytes s.scenes.loaded ++ zero ++ zero ++ [0xFF#8]))) ∧
      (table.toNat % 64 = 0 → 0x80 ≤ table.toNat → table.toNat + 1024 ≤ 0x10000 →
        ((∃ c : ChanId, run c ∧ s.scenes.mask.getLsbD c.val = true) →
          Served (.loadShadow h table first count) s s h 14#8 .busy
            (some (maskBytes s.scenes.loaded ++ zero ++ maskBytes s.scenes.mask ++ [0xFF#8]))) ∧
        ((∀ c : ChanId, run c → s.scenes.mask.getLsbD c.val = false) →
          ∀ clamped : ChanMask, (∀ c : ChanId, clamped.getLsbD c.val = true ↔
            run c ∧ (readEntry m (table.toNat + 16 * c.val)).clamped = true) →
          (∀ c : ChanId, run c → (readEntry m (table.toNat + 16 * c.val)).invalid = true →
            (∀ d : ChanId, run d → d < c → (readEntry m (table.toNat + 16 * d.val)).invalid = false) →
            Served (.loadShadow h table first count) s s h 14#8 .badArg
              (some (maskBytes s.scenes.loaded ++ maskBytes clamped ++ zero ++ [u8 c.val]))) ∧
          ((∀ c : ChanId, run c → (readEntry m (table.toNat + 16 * c.val)).invalid = false) →
            ∃ u, u = { s with scenes := { s.scenes with shadow := u.scenes.shadow, loaded := u.scenes.loaded } } ∧
              (∀ c : ChanId, u.scenes.loaded.getLsbD c.val = true ↔ run c ∨ s.scenes.loaded.getLsbD c.val = true) ∧
              (∀ c : ChanId, (run c → u.scenes.shadow[c] = (readEntry m (table.toNat + 16 * c.val)).record) ∧
                (¬run c → u.scenes.shadow[c] = s.scenes.shadow[c])) ∧
              Served (.loadShadow h table first count) s u h 14#8 (if clamped = 0#64 then .ok else .clamped)
                (some (maskBytes u.scenes.loaded ++ maskBytes clamped ++ zero ++ [0xFF#8]))))))) ∧
  ∀ (m : List Host.Cell) (a : Nat) (e : SceneEntry), e = readEntry m a →
    e.record.target.analog % 6 = 0 ∧
    (((readByte m a).toNat ≤ 240 ∧ e.record.target.analog ≤ (readByte m a).toNat + 2 ∧
        ((readByte m a).toNat : Int) ≤ e.record.target.analog + 3) ∨
      (240 < (readByte m a).toNat ∧ e.record.target.analog = 240)) ∧
    (e.record.target.padIn = true ↔ readByte m (a + 1) = 1#8) ∧
    (e.record.owner = if readByte m (a + 2) = 1#8 then some .a else if readByte m (a + 2) = 2#8 then some .b
      else if readByte m (a + 2) = 3#8 then some .c else if readByte m (a + 2) = 4#8 then some .d else none) ∧
    (∀ p ∈ [(Feed.a, 0), (.b, 1), (.c, 2), (.d, 3)],
      ((e.record.feeds.get p.1).track = true ↔ (readByte m (a + 3)).extractLsb' (2 * p.2) 2 = 1#2) ∧
      (e.record.feeds.get p.1).trim =
        max (-240) (min 96 (readByte m (a + 5 + 2 * p.2) ++ readByte m (a + 4 + 2 * p.2)).toInt) ∧
      (e.record.feeds.get p.1).mute = (readByte m (a + 12)).getLsbD p.2 ∧
      (e.record.feeds.get p.1).invert = (readByte m (a + 12)).getLsbD (p.2 + 4)) ∧
    (e.clamped = true ↔ e.record.target.analog ≠ (readByte m a).toNat ∨ ∃ i, i < 4 ∧
      ¬(-240 ≤ (readByte m (a + 5 + 2 * i) ++ readByte m (a + 4 + 2 * i)).toInt ∧
        (readByte m (a + 5 + 2 * i) ++ readByte m (a + 4 + 2 * i)).toInt ≤ 96)) ∧
    (e.invalid = true ↔ 1 < (readByte m (a + 1)).toNat ∨ 4 < (readByte m (a + 2)).toNat ∨
      ∃ i, i < 4 ∧ 1 < ((readByte m (a + 3)).extractLsb' (2 * i) 2).toNat)

/-- SWAP stores its mask and tag for the next block boundary; an empty mask is BAD_ARG, and one that meets a pending swap
is BUSY and leaves it (R119, R120). How the record is placed is log entry 2, that BAD_ARG leaves the reply log entry
21. -/
def Obligations.SwapStoresMask : Prop :=
  ∀ (s : State) (h : ReqHead) (src : Source) (mask : ChanMask), s.Ready h → decodeSource h.source = some src →
    (mask = 0#64 → Served (.swap h mask) s s h 15#8 .badArg none) ∧
    (mask ≠ 0#64 → s.scenes.mask ≠ 0#64 →
      Served (.swap h mask) s s h 15#8 .busy
        (some (maskBytes s.scenes.mask ++ maskBytes 0#64 ++ halfBytes (s.scenes.tag.getD 0#16)))) ∧
    (mask ≠ 0#64 → s.scenes.mask = 0#64 →
      Served (.swap h mask) s { s with scenes := { s.scenes with mask := mask, tag := some h.tag } } h 15#8 .ok
        (some (maskBytes mask ++ maskBytes (mask &&& s.scenes.loaded))))

/-- SET_CLOCK stores the preferred source and chooses its reference from what is fit: INTERNAL is LOCKED at once at the
nominal rate, no fit reference is HOLDOVER in the form WAIT, the reference in force and LOCKED stays so, and any other is
acquired from nothing; a CLOCK event follows exactly where reference or lock state changes, and the first block judged then
begins at the next boundary (R155); a source outside 0 to 2 is BAD_ARG (R154, R161, R162). Taken after the Clock Unit's work
at a boundary it acts on what that work leaves, an acquisition or a retry countdown that has run out included (R161; log
entry 24). The reply has the layout of R180, its codes those of the statement on reports. How the record is placed is log
entry 2, that the held rate counts millihertz log entry 5, that BAD_ARG leaves the reply log entry 21, that the form is WAIT
outside HOLDOVER log entry 35, the counts in the event of a change without a verdict log entry 41. -/
def Obligations.SetClockChoosesReference : Prop :=
  ∀ (s : State) (h : ReqHead) (src : Source) (b : Byte) (c1 c2 : Bool), s.Ready h → decodeSource h.source = some src →
    c1 = ((s.port .c1).state == .up || (s.port .c1).state == .degraded) →
    c2 = ((s.port .c2).state == .up || (s.port .c2).state == .degraded) →
    (2 < b.toNat → Served (.setClock h b) s s h 16#8 .badArg none) ∧
    ∃ q p : State, exec .acquisitionTimeout s = .next q ∧ exec .clockRetry q = .next p ∧
    (¬(s.clock.lock = .acquiring ∧ 500 ≤ s.clock.acq) →
      ¬(s.clock.lock = .holdover ∧ s.clock.form = .rest ∧ s.clock.retry = 0) → p = s) ∧
    ∀ (k : ClockSource) (ref : ClockRef) (lock : LockState),
      ((b = 0#8 ∧ k = .internal ∧ ref = .internal) ∨
        (b = 1#8 ∧ k = .portC ∧ ref = if c1 then .c1 else if c2 then .c2 else .nothing) ∨
        (b = 2#8 ∧ k = .external ∧ ref = if p.clock.extFit then .external else .nothing)) →
      ((ref = .internal ∧ lock = .locked) ∨ (ref = .nothing ∧ lock = .holdover) ∨
        (ref ≠ .internal ∧ ref ≠ .nothing ∧ ref = p.clock.ref ∧ p.clock.lock = .locked ∧ lock = .locked) ∨
        (ref ≠ .internal ∧ ref ≠ .nothing ∧ ¬(ref = p.clock.ref ∧ p.clock.lock = .locked) ∧ lock = .acquiring)) →
      ∃ u, Served (.setClock h b) s u h 16#8 .ok (some
          [sourceByte k, refByte ref, lockByte lock, formByte lock u.clock.form, flags [c1], flags [c2],
            flags [p.clock.extFit], refByte p.clock.ref, lockByte p.clock.lock]) ∧
        u = { p with clock := u.clock, ex := u.ex } ∧ u.clock.preferred = k ∧ u.clock.ref = ref ∧ u.clock.lock = lock ∧
        u.clock.extFit = p.clock.extFit ∧ u.clock.edge = p.clock.edge ∧
        (ref = p.clock.ref → lock = p.clock.lock → u = { p with clock := { p.clock with preferred := k } }) ∧
        (¬(ref = p.clock.ref ∧ lock = p.clock.lock) →
          u.clock.inRun = 0 ∧ u.clock.outRun = 0 ∧ u.clock.acq = 0 ∧ u.clock.retry = 0 ∧ u.clock.form = .wait ∧
          u.clock.armed = false ∧ u.clock.heldRate = (if ref = .internal then 48000000 else p.clock.heldRate) ∧
          u.ex = p.ex.join ⟨p.frame, .clock p.clock.lock lock p.clock.form .wait p.clock.ref ref k .select
            p.clock.inRun p.clock.outRun p.clock.acq (p.port .c1).state (p.port .c2).state p.clock.extFit
            (some h.tag)⟩)

/-- SET_EXCHANGE stores each chosen setting brought into its range, with CLAMPED if one was moved; a chosen poll interval
reloads the poll countdown at once, the meter countdown runs on, and a selector with a bit above 3 is BAD_ARG (R177). A
meter or poll countdown that a boundary has run out comes to its end first (R178; log entry 24). How the record is placed is
log entry 2, that BAD_ARG leaves the reply log entry 21. -/
def Obligations.SetExchangeStoresSettings : Prop :=
  ∀ (s : State) (h : ReqHead) (src : Source) (select : Byte) (threshold poll meter : Half) (unitId : Byte), s.Ready h →
    decodeSource h.source = some src →
    (15 < select.toNat → Served (.setExchange h select threshold poll meter unitId) s s h 17#8 .badArg none) ∧
    ∃ q p : State, exec .meterClose s = .next q ∧ exec .pollCountdownExpiry q = .next p ∧
    (s.ex.meterCountdown ≠ 0 → s.ex.pollInterval = 0 ∨ s.ex.pollCountdown ≠ 0 → p = s) ∧
    (select.toNat ≤ 15 → ∀ (b0 b1 b2 b3 : Bool) (x : Exchange),
      b0 = select.getLsbD 0 → b1 = select.getLsbD 1 → b2 = select.getLsbD 2 → b3 = select.getLsbD 3 →
      x = { p.ex with
        threshold := if b0 then min 128 threshold.toNat else p.ex.threshold,
        pollInterval := if b1 then min 100 poll.toNat else p.ex.pollInterval,
        pollCountdown := if b1 then min 100 poll.toNat else p.ex.pollCountdown,
        meterInterval := if b2 then max 10 (min 250 meter.toNat) else p.ex.meterInterval,
        unitId := if b3 then min 7 unitId.toNat else p.ex.unitId } →
      Served (.setExchange h select threshold poll meter unitId) s { p with ex := x } h 17#8
        (if (b0 = true → threshold.toNat ≤ 128) ∧ (b1 = true → poll.toNat ≤ 100) ∧
            (b2 = true → 10 ≤ meter.toNat ∧ meter.toNat ≤ 250) ∧ (b3 = true → unitId.toNat ≤ 7) then .ok else .clamped)
        (some [u8 x.threshold, u8 x.pollInterval, u8 x.meterInterval, u8 x.unitId, u8 x.pollCountdown,
          u8 x.meterCountdown]))
end

