-- ==== Sys2Proof/Laws/State.lean ====
section
/-! SUPPORT. The fields of the state through each named update: one lemma per field per update, so that no later proof
unfolds a record update, and the tables of records under an update. -/

namespace Sys2Proof.Machine

variable (s : State)

/-! ### Tables -/

@[simp] theorem tab_get {α : Type} {n : Nat} (f : Fin n → α) (i : Fin n) : (tab f)[i.val] = f i := by
  simp [tab]

theorem upd_get {α : Type} {n : Nat} (v : Vector α n) (i j : Fin n) (x : α) :
    (upd v i x)[j.val] = if i = j then x else v[j.val] := by
  simp [upd, Vector.getElem_set, Fin.ext_iff]

@[simp] theorem upd_same {α : Type} {n : Nat} (v : Vector α n) (i : Fin n) (x : α) : (upd v i x)[i.val] = x := by
  simp [upd_get]

theorem upd_other {α : Type} {n : Nat} (v : Vector α n) {i j : Fin n} (x : α) (h : i ≠ j) :
    (upd v i x)[j.val] = v[j.val] := by
  simp [upd_get, h]

@[simp] theorem mem_indices {n : Nat} (i : Fin n) : i ∈ indices n := by simp [indices]

@[simp] theorem mem_allFeeds (f : Feed) : f ∈ allFeeds := by cases f <;> simp [allFeeds]

@[simp] theorem mem_allPorts (p : Port) : p ∈ allPorts := by cases p <;> simp [allPorts]

@[simp] theorem PerFeed.of_get {α : Type} (g : Feed → α) (f : Feed) : (PerFeed.of g).get f = g f := by cases f <;> rfl

@[simp] theorem perFeed_get {α : Type} (x : α) (f : Feed) : (perFeed x).get f = x := by cases f <;> rfl

theorem PerFeed.set_get {α : Type} (v : PerFeed α) (f g : Feed) (x : α) :
    (v.set f x).get g = if f = g then x else v.get g := by
  cases f <;> cases g <;> simp [PerFeed.set, PerFeed.get]

@[simp] theorem PerPort.of_get {α : Type} (g : Port → α) (p : Port) : (PerPort.of g).get p = g p := by cases p <;> rfl

@[simp] theorem perPort_get {α : Type} (x : α) (p : Port) : (perPort x).get p = x := by cases p <;> rfl

theorem PerPort.set_get {α : Type} (v : PerPort α) (p q : Port) (x : α) :
    (v.set p x).get q = if p = q then x else v.get q := by
  cases p <;> cases q <;> simp [PerPort.set, PerPort.get]

/-! ### Records under an update -/

theorem State.setChan_chan (c d : ChanId) (x : Chan) : (s.setChan c x).chan d = if c = d then x else s.chan d := by
  simp [State.setChan, State.chan, upd_get]

theorem State.setXp_xp (c d : ChanId) (f g : Feed) (x : Xp) :
    (s.setXp c f x).xp d g = if c = d ∧ f = g then x else s.xp d g := by
  by_cases h : c = d
  · subst h; simp [State.setXp, State.xp, PerFeed.set_get]
  · simp [State.setXp, State.xp, upd_get, h]

theorem State.setBoard_board (b d : BoardId) (x : Board) : (s.setBoard b x).board d = if b = d then x else s.board d := by
  simp [State.setBoard, State.board, upd_get]

theorem State.setGuard_guard (c d : ChanId) (x : Guard) : (s.setGuard c x).guard d = if c = d then x else s.guard d := by
  simp [State.setGuard, State.guard, upd_get]

theorem State.setPort_port (p q : Port) (x : PortRec) : (s.setPort p x).port q = if p = q then x else s.port q := by
  simp [State.setPort, State.port, PerPort.set_get]

theorem State.putChan_chan (c d : ChanId) (r : Chan × List Event) :
    (s.putChan c r).chan d = if c = d then r.1 else s.chan d := by
  simp [State.putChan, State.chan, upd_get]

theorem State.putChan_xp (c d : ChanId) (f : Feed) (r : Chan × List Event) :
    (s.putChan c r).xp d f =
      if c = d ∧ r.1.level ≠ (s.chan c).level then (s.xp d f).relevel (s.chan c).level r.1.level else s.xp d f := by
  by_cases h : r.1.level = (s.chan c).level
  · simp [State.putChan, State.xp, h]
  · by_cases e : c = d
    · subst e; simp [State.putChan, State.xp, h]
    · simp [State.putChan, State.xp, h, e, upd_get]

/-! ### What the Exchange Unit's state becomes -/

@[simp] theorem State.setEx_ex (x : Exchange) : (s.setEx x).ex = x := rfl
@[simp] theorem State.raise_ex (e : Event) : (s.raise e).ex = s.ex.join { stamp := s.frame, event := e } := rfl
@[simp] theorem State.raiseAll_ex (es : List Event) : (s.raiseAll es).ex = s.ex.joinAll s.frame es := rfl
@[simp] theorem State.putChan_ex (c : ChanId) (r : Chan × List Event) :
    (s.putChan c r).ex = s.ex.joinAll s.frame r.2 := rfl
@[simp] theorem State.finish_ex (t : TakeHead) (r : Result) (y : Option (List Byte)) :
    (s.finish t r y).ex = s.ex.finish t r y := rfl
@[simp] theorem State.hold_ex (t : TakeHead) (r : Result) (y : XpReply) :
    (s.hold t r y).ex = { s.ex with inHand := some { head := t, result := r, reply := y, ready := none } } := rfl

/-! ### The fields that an update leaves alone -/

/-! A channel's record replaced. -/

@[simp] theorem State.setChan_pending (c : ChanId) (x : Chan) : (s.setChan c x).pending = s.pending := rfl
@[simp] theorem State.setChan_frame (c : ChanId) (x : Chan) : (s.setChan c x).frame = s.frame := rfl
@[simp] theorem State.setChan_owed (c : ChanId) (x : Chan) : (s.setChan c x).owed = s.owed := rfl
@[simp] theorem State.setChan_lanes (c : ChanId) (x : Chan) : (s.setChan c x).lanes = s.lanes := rfl
@[simp] theorem State.setChan_samples (c : ChanId) (x : Chan) : (s.setChan c x).samples = s.samples := rfl
@[simp] theorem State.setChan_line (c : ChanId) (x : Chan) : (s.setChan c x).line = s.line := rfl
@[simp] theorem State.setChan_lineOut (c : ChanId) (x : Chan) : (s.setChan c x).lineOut = s.lineOut := rfl
@[simp] theorem State.setChan_boards (c : ChanId) (x : Chan) : (s.setChan c x).boards = s.boards := rfl
@[simp] theorem State.setChan_arb (c : ChanId) (x : Chan) : (s.setChan c x).arb = s.arb := rfl
@[simp] theorem State.setChan_xps (c : ChanId) (x : Chan) : (s.setChan c x).xps = s.xps := rfl
@[simp] theorem State.setChan_feedOn (c : ChanId) (x : Chan) : (s.setChan c x).feedOn = s.feedOn := rfl
@[simp] theorem State.setChan_senior (c : ChanId) (x : Chan) : (s.setChan c x).senior = s.senior := rfl
@[simp] theorem State.setChan_slots (c : ChanId) (x : Chan) : (s.setChan c x).slots = s.slots := rfl
@[simp] theorem State.setChan_outputs (c : ChanId) (x : Chan) : (s.setChan c x).outputs = s.outputs := rfl
@[simp] theorem State.setChan_views (c : ChanId) (x : Chan) : (s.setChan c x).views = s.views := rfl
@[simp] theorem State.setChan_blocks (c : ChanId) (x : Chan) : (s.setChan c x).blocks = s.blocks := rfl
@[simp] theorem State.setChan_intervals (c : ChanId) (x : Chan) : (s.setChan c x).intervals = s.intervals := rfl
@[simp] theorem State.setChan_guards (c : ChanId) (x : Chan) : (s.setChan c x).guards = s.guards := rfl
@[simp] theorem State.setChan_scenes (c : ChanId) (x : Chan) : (s.setChan c x).scenes = s.scenes := rfl
@[simp] theorem State.setChan_ports (c : ChanId) (x : Chan) : (s.setChan c x).ports = s.ports := rfl
@[simp] theorem State.setChan_portOut (c : ChanId) (x : Chan) : (s.setChan c x).portOut = s.portOut := rfl
@[simp] theorem State.setChan_clock (c : ChanId) (x : Chan) : (s.setChan c x).clock = s.clock := rfl
@[simp] theorem State.setChan_ex (c : ChanId) (x : Chan) : (s.setChan c x).ex = s.ex := rfl

/-! A crosspoint replaced. -/

@[simp] theorem State.setXp_pending (c : ChanId) (f : Feed) (x : Xp) : (s.setXp c f x).pending = s.pending := rfl
@[simp] theorem State.setXp_frame (c : ChanId) (f : Feed) (x : Xp) : (s.setXp c f x).frame = s.frame := rfl
@[simp] theorem State.setXp_owed (c : ChanId) (f : Feed) (x : Xp) : (s.setXp c f x).owed = s.owed := rfl
@[simp] theorem State.setXp_lanes (c : ChanId) (f : Feed) (x : Xp) : (s.setXp c f x).lanes = s.lanes := rfl
@[simp] theorem State.setXp_samples (c : ChanId) (f : Feed) (x : Xp) : (s.setXp c f x).samples = s.samples := rfl
@[simp] theorem State.setXp_line (c : ChanId) (f : Feed) (x : Xp) : (s.setXp c f x).line = s.line := rfl
@[simp] theorem State.setXp_lineOut (c : ChanId) (f : Feed) (x : Xp) : (s.setXp c f x).lineOut = s.lineOut := rfl
@[simp] theorem State.setXp_boards (c : ChanId) (f : Feed) (x : Xp) : (s.setXp c f x).boards = s.boards := rfl
@[simp] theorem State.setXp_arb (c : ChanId) (f : Feed) (x : Xp) : (s.setXp c f x).arb = s.arb := rfl
@[simp] theorem State.setXp_chans (c : ChanId) (f : Feed) (x : Xp) : (s.setXp c f x).chans = s.chans := rfl
@[simp] theorem State.setXp_feedOn (c : ChanId) (f : Feed) (x : Xp) : (s.setXp c f x).feedOn = s.feedOn := rfl
@[simp] theorem State.setXp_senior (c : ChanId) (f : Feed) (x : Xp) : (s.setXp c f x).senior = s.senior := rfl
@[simp] theorem State.setXp_slots (c : ChanId) (f : Feed) (x : Xp) : (s.setXp c f x).slots = s.slots := rfl
@[simp] theorem State.setXp_outputs (c : ChanId) (f : Feed) (x : Xp) : (s.setXp c f x).outputs = s.outputs := rfl
@[simp] theorem State.setXp_views (c : ChanId) (f : Feed) (x : Xp) : (s.setXp c f x).views = s.views := rfl
@[simp] theorem State.setXp_blocks (c : ChanId) (f : Feed) (x : Xp) : (s.setXp c f x).blocks = s.blocks := rfl
@[simp] theorem State.setXp_intervals (c : ChanId) (f : Feed) (x : Xp) : (s.setXp c f x).intervals = s.intervals := rfl
@[simp] theorem State.setXp_guards (c : ChanId) (f : Feed) (x : Xp) : (s.setXp c f x).guards = s.guards := rfl
@[simp] theorem State.setXp_scenes (c : ChanId) (f : Feed) (x : Xp) : (s.setXp c f x).scenes = s.scenes := rfl
@[simp] theorem State.setXp_ports (c : ChanId) (f : Feed) (x : Xp) : (s.setXp c f x).ports = s.ports := rfl
@[simp] theorem State.setXp_portOut (c : ChanId) (f : Feed) (x : Xp) : (s.setXp c f x).portOut = s.portOut := rfl
@[simp] theorem State.setXp_clock (c : ChanId) (f : Feed) (x : Xp) : (s.setXp c f x).clock = s.clock := rfl
@[simp] theorem State.setXp_ex (c : ChanId) (f : Feed) (x : Xp) : (s.setXp c f x).ex = s.ex := rfl

/-! A channel's crosspoints replaced. -/

@[simp] theorem State.setXps_pending (c : ChanId) (x : PerFeed Xp) : (s.setXps c x).pending = s.pending := rfl
@[simp] theorem State.setXps_frame (c : ChanId) (x : PerFeed Xp) : (s.setXps c x).frame = s.frame := rfl
@[simp] theorem State.setXps_owed (c : ChanId) (x : PerFeed Xp) : (s.setXps c x).owed = s.owed := rfl
@[simp] theorem State.setXps_lanes (c : ChanId) (x : PerFeed Xp) : (s.setXps c x).lanes = s.lanes := rfl
@[simp] theorem State.setXps_samples (c : ChanId) (x : PerFeed Xp) : (s.setXps c x).samples = s.samples := rfl
@[simp] theorem State.setXps_line (c : ChanId) (x : PerFeed Xp) : (s.setXps c x).line = s.line := rfl
@[simp] theorem State.setXps_lineOut (c : ChanId) (x : PerFeed Xp) : (s.setXps c x).lineOut = s.lineOut := rfl
@[simp] theorem State.setXps_boards (c : ChanId) (x : PerFeed Xp) : (s.setXps c x).boards = s.boards := rfl
@[simp] theorem State.setXps_arb (c : ChanId) (x : PerFeed Xp) : (s.setXps c x).arb = s.arb := rfl
@[simp] theorem State.setXps_chans (c : ChanId) (x : PerFeed Xp) : (s.setXps c x).chans = s.chans := rfl
@[simp] theorem State.setXps_feedOn (c : ChanId) (x : PerFeed Xp) : (s.setXps c x).feedOn = s.feedOn := rfl
@[simp] theorem State.setXps_senior (c : ChanId) (x : PerFeed Xp) : (s.setXps c x).senior = s.senior := rfl
@[simp] theorem State.setXps_slots (c : ChanId) (x : PerFeed Xp) : (s.setXps c x).slots = s.slots := rfl
@[simp] theorem State.setXps_outputs (c : ChanId) (x : PerFeed Xp) : (s.setXps c x).outputs = s.outputs := rfl
@[simp] theorem State.setXps_views (c : ChanId) (x : PerFeed Xp) : (s.setXps c x).views = s.views := rfl
@[simp] theorem State.setXps_blocks (c : ChanId) (x : PerFeed Xp) : (s.setXps c x).blocks = s.blocks := rfl
@[simp] theorem State.setXps_intervals (c : ChanId) (x : PerFeed Xp) : (s.setXps c x).intervals = s.intervals := rfl
@[simp] theorem State.setXps_guards (c : ChanId) (x : PerFeed Xp) : (s.setXps c x).guards = s.guards := rfl
@[simp] theorem State.setXps_scenes (c : ChanId) (x : PerFeed Xp) : (s.setXps c x).scenes = s.scenes := rfl
@[simp] theorem State.setXps_ports (c : ChanId) (x : PerFeed Xp) : (s.setXps c x).ports = s.ports := rfl
@[simp] theorem State.setXps_portOut (c : ChanId) (x : PerFeed Xp) : (s.setXps c x).portOut = s.portOut := rfl
@[simp] theorem State.setXps_clock (c : ChanId) (x : PerFeed Xp) : (s.setXps c x).clock = s.clock := rfl
@[simp] theorem State.setXps_ex (c : ChanId) (x : PerFeed Xp) : (s.setXps c x).ex = s.ex := rfl

/-! A board's record replaced. -/

@[simp] theorem State.setBoard_pending (b : BoardId) (x : Board) : (s.setBoard b x).pending = s.pending := rfl
@[simp] theorem State.setBoard_frame (b : BoardId) (x : Board) : (s.setBoard b x).frame = s.frame := rfl
@[simp] theorem State.setBoard_owed (b : BoardId) (x : Board) : (s.setBoard b x).owed = s.owed := rfl
@[simp] theorem State.setBoard_lanes (b : BoardId) (x : Board) : (s.setBoard b x).lanes = s.lanes := rfl
@[simp] theorem State.setBoard_samples (b : BoardId) (x : Board) : (s.setBoard b x).samples = s.samples := rfl
@[simp] theorem State.setBoard_line (b : BoardId) (x : Board) : (s.setBoard b x).line = s.line := rfl
@[simp] theorem State.setBoard_lineOut (b : BoardId) (x : Board) : (s.setBoard b x).lineOut = s.lineOut := rfl
@[simp] theorem State.setBoard_arb (b : BoardId) (x : Board) : (s.setBoard b x).arb = s.arb := rfl
@[simp] theorem State.setBoard_chans (b : BoardId) (x : Board) : (s.setBoard b x).chans = s.chans := rfl
@[simp] theorem State.setBoard_xps (b : BoardId) (x : Board) : (s.setBoard b x).xps = s.xps := rfl
@[simp] theorem State.setBoard_feedOn (b : BoardId) (x : Board) : (s.setBoard b x).feedOn = s.feedOn := rfl
@[simp] theorem State.setBoard_senior (b : BoardId) (x : Board) : (s.setBoard b x).senior = s.senior := rfl
@[simp] theorem State.setBoard_slots (b : BoardId) (x : Board) : (s.setBoard b x).slots = s.slots := rfl
@[simp] theorem State.setBoard_outputs (b : BoardId) (x : Board) : (s.setBoard b x).outputs = s.outputs := rfl
@[simp] theorem State.setBoard_views (b : BoardId) (x : Board) : (s.setBoard b x).views = s.views := rfl
@[simp] theorem State.setBoard_blocks (b : BoardId) (x : Board) : (s.setBoard b x).blocks = s.blocks := rfl
@[simp] theorem State.setBoard_intervals (b : BoardId) (x : Board) : (s.setBoard b x).intervals = s.intervals := rfl
@[simp] theorem State.setBoard_guards (b : BoardId) (x : Board) : (s.setBoard b x).guards = s.guards := rfl
@[simp] theorem State.setBoard_scenes (b : BoardId) (x : Board) : (s.setBoard b x).scenes = s.scenes := rfl
@[simp] theorem State.setBoard_ports (b : BoardId) (x : Board) : (s.setBoard b x).ports = s.ports := rfl
@[simp] theorem State.setBoard_portOut (b : BoardId) (x : Board) : (s.setBoard b x).portOut = s.portOut := rfl
@[simp] theorem State.setBoard_clock (b : BoardId) (x : Board) : (s.setBoard b x).clock = s.clock := rfl
@[simp] theorem State.setBoard_ex (b : BoardId) (x : Board) : (s.setBoard b x).ex = s.ex := rfl

/-! A guard's record replaced. -/

@[simp] theorem State.setGuard_pending (c : ChanId) (x : Guard) : (s.setGuard c x).pending = s.pending := rfl
@[simp] theorem State.setGuard_frame (c : ChanId) (x : Guard) : (s.setGuard c x).frame = s.frame := rfl
@[simp] theorem State.setGuard_owed (c : ChanId) (x : Guard) : (s.setGuard c x).owed = s.owed := rfl
@[simp] theorem State.setGuard_lanes (c : ChanId) (x : Guard) : (s.setGuard c x).lanes = s.lanes := rfl
@[simp] theorem State.setGuard_samples (c : ChanId) (x : Guard) : (s.setGuard c x).samples = s.samples := rfl
@[simp] theorem State.setGuard_line (c : ChanId) (x : Guard) : (s.setGuard c x).line = s.line := rfl
@[simp] theorem State.setGuard_lineOut (c : ChanId) (x : Guard) : (s.setGuard c x).lineOut = s.lineOut := rfl
@[simp] theorem State.setGuard_boards (c : ChanId) (x : Guard) : (s.setGuard c x).boards = s.boards := rfl
@[simp] theorem State.setGuard_arb (c : ChanId) (x : Guard) : (s.setGuard c x).arb = s.arb := rfl
@[simp] theorem State.setGuard_chans (c : ChanId) (x : Guard) : (s.setGuard c x).chans = s.chans := rfl
@[simp] theorem State.setGuard_xps (c : ChanId) (x : Guard) : (s.setGuard c x).xps = s.xps := rfl
@[simp] theorem State.setGuard_feedOn (c : ChanId) (x : Guard) : (s.setGuard c x).feedOn = s.feedOn := rfl
@[simp] theorem State.setGuard_senior (c : ChanId) (x : Guard) : (s.setGuard c x).senior = s.senior := rfl
@[simp] theorem State.setGuard_slots (c : ChanId) (x : Guard) : (s.setGuard c x).slots = s.slots := rfl
@[simp] theorem State.setGuard_outputs (c : ChanId) (x : Guard) : (s.setGuard c x).outputs = s.outputs := rfl
@[simp] theorem State.setGuard_views (c : ChanId) (x : Guard) : (s.setGuard c x).views = s.views := rfl
@[simp] theorem State.setGuard_blocks (c : ChanId) (x : Guard) : (s.setGuard c x).blocks = s.blocks := rfl
@[simp] theorem State.setGuard_intervals (c : ChanId) (x : Guard) : (s.setGuard c x).intervals = s.intervals := rfl
@[simp] theorem State.setGuard_scenes (c : ChanId) (x : Guard) : (s.setGuard c x).scenes = s.scenes := rfl
@[simp] theorem State.setGuard_ports (c : ChanId) (x : Guard) : (s.setGuard c x).ports = s.ports := rfl
@[simp] theorem State.setGuard_portOut (c : ChanId) (x : Guard) : (s.setGuard c x).portOut = s.portOut := rfl
@[simp] theorem State.setGuard_clock (c : ChanId) (x : Guard) : (s.setGuard c x).clock = s.clock := rfl
@[simp] theorem State.setGuard_ex (c : ChanId) (x : Guard) : (s.setGuard c x).ex = s.ex := rfl

/-! A port's record replaced. -/

@[simp] theorem State.setPort_pending (p : Port) (x : PortRec) : (s.setPort p x).pending = s.pending := rfl
@[simp] theorem State.setPort_frame (p : Port) (x : PortRec) : (s.setPort p x).frame = s.frame := rfl
@[simp] theorem State.setPort_owed (p : Port) (x : PortRec) : (s.setPort p x).owed = s.owed := rfl
@[simp] theorem State.setPort_lanes (p : Port) (x : PortRec) : (s.setPort p x).lanes = s.lanes := rfl
@[simp] theorem State.setPort_samples (p : Port) (x : PortRec) : (s.setPort p x).samples = s.samples := rfl
@[simp] theorem State.setPort_line (p : Port) (x : PortRec) : (s.setPort p x).line = s.line := rfl
@[simp] theorem State.setPort_lineOut (p : Port) (x : PortRec) : (s.setPort p x).lineOut = s.lineOut := rfl
@[simp] theorem State.setPort_boards (p : Port) (x : PortRec) : (s.setPort p x).boards = s.boards := rfl
@[simp] theorem State.setPort_arb (p : Port) (x : PortRec) : (s.setPort p x).arb = s.arb := rfl
@[simp] theorem State.setPort_chans (p : Port) (x : PortRec) : (s.setPort p x).chans = s.chans := rfl
@[simp] theorem State.setPort_xps (p : Port) (x : PortRec) : (s.setPort p x).xps = s.xps := rfl
@[simp] theorem State.setPort_feedOn (p : Port) (x : PortRec) : (s.setPort p x).feedOn = s.feedOn := rfl
@[simp] theorem State.setPort_senior (p : Port) (x : PortRec) : (s.setPort p x).senior = s.senior := rfl
@[simp] theorem State.setPort_slots (p : Port) (x : PortRec) : (s.setPort p x).slots = s.slots := rfl
@[simp] theorem State.setPort_outputs (p : Port) (x : PortRec) : (s.setPort p x).outputs = s.outputs := rfl
@[simp] theorem State.setPort_views (p : Port) (x : PortRec) : (s.setPort p x).views = s.views := rfl
@[simp] theorem State.setPort_blocks (p : Port) (x : PortRec) : (s.setPort p x).blocks = s.blocks := rfl
@[simp] theorem State.setPort_intervals (p : Port) (x : PortRec) : (s.setPort p x).intervals = s.intervals := rfl
@[simp] theorem State.setPort_guards (p : Port) (x : PortRec) : (s.setPort p x).guards = s.guards := rfl
@[simp] theorem State.setPort_scenes (p : Port) (x : PortRec) : (s.setPort p x).scenes = s.scenes := rfl
@[simp] theorem State.setPort_portOut (p : Port) (x : PortRec) : (s.setPort p x).portOut = s.portOut := rfl
@[simp] theorem State.setPort_clock (p : Port) (x : PortRec) : (s.setPort p x).clock = s.clock := rfl
@[simp] theorem State.setPort_ex (p : Port) (x : PortRec) : (s.setPort p x).ex = s.ex := rfl

/-! The Exchange Unit's state replaced. -/

@[simp] theorem State.setEx_pending (x : Exchange) : (s.setEx x).pending = s.pending := rfl
@[simp] theorem State.setEx_frame (x : Exchange) : (s.setEx x).frame = s.frame := rfl
@[simp] theorem State.setEx_owed (x : Exchange) : (s.setEx x).owed = s.owed := rfl
@[simp] theorem State.setEx_lanes (x : Exchange) : (s.setEx x).lanes = s.lanes := rfl
@[simp] theorem State.setEx_samples (x : Exchange) : (s.setEx x).samples = s.samples := rfl
@[simp] theorem State.setEx_line (x : Exchange) : (s.setEx x).line = s.line := rfl
@[simp] theorem State.setEx_lineOut (x : Exchange) : (s.setEx x).lineOut = s.lineOut := rfl
@[simp] theorem State.setEx_boards (x : Exchange) : (s.setEx x).boards = s.boards := rfl
@[simp] theorem State.setEx_arb (x : Exchange) : (s.setEx x).arb = s.arb := rfl
@[simp] theorem State.setEx_chans (x : Exchange) : (s.setEx x).chans = s.chans := rfl
@[simp] theorem State.setEx_xps (x : Exchange) : (s.setEx x).xps = s.xps := rfl
@[simp] theorem State.setEx_feedOn (x : Exchange) : (s.setEx x).feedOn = s.feedOn := rfl
@[simp] theorem State.setEx_senior (x : Exchange) : (s.setEx x).senior = s.senior := rfl
@[simp] theorem State.setEx_slots (x : Exchange) : (s.setEx x).slots = s.slots := rfl
@[simp] theorem State.setEx_outputs (x : Exchange) : (s.setEx x).outputs = s.outputs := rfl
@[simp] theorem State.setEx_views (x : Exchange) : (s.setEx x).views = s.views := rfl
@[simp] theorem State.setEx_blocks (x : Exchange) : (s.setEx x).blocks = s.blocks := rfl
@[simp] theorem State.setEx_intervals (x : Exchange) : (s.setEx x).intervals = s.intervals := rfl
@[simp] theorem State.setEx_guards (x : Exchange) : (s.setEx x).guards = s.guards := rfl
@[simp] theorem State.setEx_scenes (x : Exchange) : (s.setEx x).scenes = s.scenes := rfl
@[simp] theorem State.setEx_ports (x : Exchange) : (s.setEx x).ports = s.ports := rfl
@[simp] theorem State.setEx_portOut (x : Exchange) : (s.setEx x).portOut = s.portOut := rfl
@[simp] theorem State.setEx_clock (x : Exchange) : (s.setEx x).clock = s.clock := rfl

/-! An event handed over. -/

@[simp] theorem State.raise_pending (e : Event) : (s.raise e).pending = s.pending := rfl
@[simp] theorem State.raise_frame (e : Event) : (s.raise e).frame = s.frame := rfl
@[simp] theorem State.raise_owed (e : Event) : (s.raise e).owed = s.owed := rfl
@[simp] theorem State.raise_lanes (e : Event) : (s.raise e).lanes = s.lanes := rfl
@[simp] theorem State.raise_samples (e : Event) : (s.raise e).samples = s.samples := rfl
@[simp] theorem State.raise_line (e : Event) : (s.raise e).line = s.line := rfl
@[simp] theorem State.raise_lineOut (e : Event) : (s.raise e).lineOut = s.lineOut := rfl
@[simp] theorem State.raise_boards (e : Event) : (s.raise e).boards = s.boards := rfl
@[simp] theorem State.raise_arb (e : Event) : (s.raise e).arb = s.arb := rfl
@[simp] theorem State.raise_chans (e : Event) : (s.raise e).chans = s.chans := rfl
@[simp] theorem State.raise_xps (e : Event) : (s.raise e).xps = s.xps := rfl
@[simp] theorem State.raise_feedOn (e : Event) : (s.raise e).feedOn = s.feedOn := rfl
@[simp] theorem State.raise_senior (e : Event) : (s.raise e).senior = s.senior := rfl
@[simp] theorem State.raise_slots (e : Event) : (s.raise e).slots = s.slots := rfl
@[simp] theorem State.raise_outputs (e : Event) : (s.raise e).outputs = s.outputs := rfl
@[simp] theorem State.raise_views (e : Event) : (s.raise e).views = s.views := rfl
@[simp] theorem State.raise_blocks (e : Event) : (s.raise e).blocks = s.blocks := rfl
@[simp] theorem State.raise_intervals (e : Event) : (s.raise e).intervals = s.intervals := rfl
@[simp] theorem State.raise_guards (e : Event) : (s.raise e).guards = s.guards := rfl
@[simp] theorem State.raise_scenes (e : Event) : (s.raise e).scenes = s.scenes := rfl
@[simp] theorem State.raise_ports (e : Event) : (s.raise e).ports = s.ports := rfl
@[simp] theorem State.raise_portOut (e : Event) : (s.raise e).portOut = s.portOut := rfl
@[simp] theorem State.raise_clock (e : Event) : (s.raise e).clock = s.clock := rfl

/-! Events handed over. -/

@[simp] theorem State.raiseAll_pending (es : List Event) : (s.raiseAll es).pending = s.pending := rfl
@[simp] theorem State.raiseAll_frame (es : List Event) : (s.raiseAll es).frame = s.frame := rfl
@[simp] theorem State.raiseAll_owed (es : List Event) : (s.raiseAll es).owed = s.owed := rfl
@[simp] theorem State.raiseAll_lanes (es : List Event) : (s.raiseAll es).lanes = s.lanes := rfl
@[simp] theorem State.raiseAll_samples (es : List Event) : (s.raiseAll es).samples = s.samples := rfl
@[simp] theorem State.raiseAll_line (es : List Event) : (s.raiseAll es).line = s.line := rfl
@[simp] theorem State.raiseAll_lineOut (es : List Event) : (s.raiseAll es).lineOut = s.lineOut := rfl
@[simp] theorem State.raiseAll_boards (es : List Event) : (s.raiseAll es).boards = s.boards := rfl
@[simp] theorem State.raiseAll_arb (es : List Event) : (s.raiseAll es).arb = s.arb := rfl
@[simp] theorem State.raiseAll_chans (es : List Event) : (s.raiseAll es).chans = s.chans := rfl
@[simp] theorem State.raiseAll_xps (es : List Event) : (s.raiseAll es).xps = s.xps := rfl
@[simp] theorem State.raiseAll_feedOn (es : List Event) : (s.raiseAll es).feedOn = s.feedOn := rfl
@[simp] theorem State.raiseAll_senior (es : List Event) : (s.raiseAll es).senior = s.senior := rfl
@[simp] theorem State.raiseAll_slots (es : List Event) : (s.raiseAll es).slots = s.slots := rfl
@[simp] theorem State.raiseAll_outputs (es : List Event) : (s.raiseAll es).outputs = s.outputs := rfl
@[simp] theorem State.raiseAll_views (es : List Event) : (s.raiseAll es).views = s.views := rfl
@[simp] theorem State.raiseAll_blocks (es : List Event) : (s.raiseAll es).blocks = s.blocks := rfl
@[simp] theorem State.raiseAll_intervals (es : List Event) : (s.raiseAll es).intervals = s.intervals := rfl
@[simp] theorem State.raiseAll_guards (es : List Event) : (s.raiseAll es).guards = s.guards := rfl
@[simp] theorem State.raiseAll_scenes (es : List Event) : (s.raiseAll es).scenes = s.scenes := rfl
@[simp] theorem State.raiseAll_ports (es : List Event) : (s.raiseAll es).ports = s.ports := rfl
@[simp] theorem State.raiseAll_portOut (es : List Event) : (s.raiseAll es).portOut = s.portOut := rfl
@[simp] theorem State.raiseAll_clock (es : List Event) : (s.raiseAll es).clock = s.clock := rfl

/-! A Gain Tracker operation put in force. -/

@[simp] theorem State.putChan_pending (c : ChanId) (r : Chan × List Event) : (s.putChan c r).pending = s.pending := rfl
@[simp] theorem State.putChan_frame (c : ChanId) (r : Chan × List Event) : (s.putChan c r).frame = s.frame := rfl
@[simp] theorem State.putChan_owed (c : ChanId) (r : Chan × List Event) : (s.putChan c r).owed = s.owed := rfl
@[simp] theorem State.putChan_lanes (c : ChanId) (r : Chan × List Event) : (s.putChan c r).lanes = s.lanes := rfl
@[simp] theorem State.putChan_samples (c : ChanId) (r : Chan × List Event) : (s.putChan c r).samples = s.samples := rfl
@[simp] theorem State.putChan_line (c : ChanId) (r : Chan × List Event) : (s.putChan c r).line = s.line := rfl
@[simp] theorem State.putChan_lineOut (c : ChanId) (r : Chan × List Event) : (s.putChan c r).lineOut = s.lineOut := rfl
@[simp] theorem State.putChan_boards (c : ChanId) (r : Chan × List Event) : (s.putChan c r).boards = s.boards := rfl
@[simp] theorem State.putChan_arb (c : ChanId) (r : Chan × List Event) : (s.putChan c r).arb = s.arb := rfl
@[simp] theorem State.putChan_feedOn (c : ChanId) (r : Chan × List Event) : (s.putChan c r).feedOn = s.feedOn := rfl
@[simp] theorem State.putChan_senior (c : ChanId) (r : Chan × List Event) : (s.putChan c r).senior = s.senior := rfl
@[simp] theorem State.putChan_slots (c : ChanId) (r : Chan × List Event) : (s.putChan c r).slots = s.slots := rfl
@[simp] theorem State.putChan_outputs (c : ChanId) (r : Chan × List Event) : (s.putChan c r).outputs = s.outputs := rfl
@[simp] theorem State.putChan_views (c : ChanId) (r : Chan × List Event) : (s.putChan c r).views = s.views := rfl
@[simp] theorem State.putChan_blocks (c : ChanId) (r : Chan × List Event) : (s.putChan c r).blocks = s.blocks := rfl
@[simp] theorem State.putChan_intervals (c : ChanId) (r : Chan × List Event) : (s.putChan c r).intervals = s.intervals := rfl
@[simp] theorem State.putChan_guards (c : ChanId) (r : Chan × List Event) : (s.putChan c r).guards = s.guards := rfl
@[simp] theorem State.putChan_scenes (c : ChanId) (r : Chan × List Event) : (s.putChan c r).scenes = s.scenes := rfl
@[simp] theorem State.putChan_ports (c : ChanId) (r : Chan × List Event) : (s.putChan c r).ports = s.ports := rfl
@[simp] theorem State.putChan_portOut (c : ChanId) (r : Chan × List Event) : (s.putChan c r).portOut = s.portOut := rfl
@[simp] theorem State.putChan_clock (c : ChanId) (r : Chan × List Event) : (s.putChan c r).clock = s.clock := rfl

/-! An outcome written. -/

@[simp] theorem State.finish_pending (t : TakeHead) (r : Result) (y : Option (List Byte)) : (s.finish t r y).pending = s.pending := rfl
@[simp] theorem State.finish_frame (t : TakeHead) (r : Result) (y : Option (List Byte)) : (s.finish t r y).frame = s.frame := rfl
@[simp] theorem State.finish_owed (t : TakeHead) (r : Result) (y : Option (List Byte)) : (s.finish t r y).owed = s.owed := rfl
@[simp] theorem State.finish_lanes (t : TakeHead) (r : Result) (y : Option (List Byte)) : (s.finish t r y).lanes = s.lanes := rfl
@[simp] theorem State.finish_samples (t : TakeHead) (r : Result) (y : Option (List Byte)) : (s.finish t r y).samples = s.samples := rfl
@[simp] theorem State.finish_line (t : TakeHead) (r : Result) (y : Option (List Byte)) : (s.finish t r y).line = s.line := rfl
@[simp] theorem State.finish_lineOut (t : TakeHead) (r : Result) (y : Option (List Byte)) : (s.finish t r y).lineOut = s.lineOut := rfl
@[simp] theorem State.finish_boards (t : TakeHead) (r : Result) (y : Option (List Byte)) : (s.finish t r y).boards = s.boards := rfl
@[simp] theorem State.finish_arb (t : TakeHead) (r : Result) (y : Option (List Byte)) : (s.finish t r y).arb = s.arb := rfl
@[simp] theorem State.finish_chans (t : TakeHead) (r : Result) (y : Option (List Byte)) : (s.finish t r y).chans = s.chans := rfl
@[simp] theorem State.finish_xps (t : TakeHead) (r : Result) (y : Option (List Byte)) : (s.finish t r y).xps = s.xps := rfl
@[simp] theorem State.finish_feedOn (t : TakeHead) (r : Result) (y : Option (List Byte)) : (s.finish t r y).feedOn = s.feedOn := rfl
@[simp] theorem State.finish_senior (t : TakeHead) (r : Result) (y : Option (List Byte)) : (s.finish t r y).senior = s.senior := rfl
@[simp] theorem State.finish_slots (t : TakeHead) (r : Result) (y : Option (List Byte)) : (s.finish t r y).slots = s.slots := rfl
@[simp] theorem State.finish_outputs (t : TakeHead) (r : Result) (y : Option (List Byte)) : (s.finish t r y).outputs = s.outputs := rfl
@[simp] theorem State.finish_views (t : TakeHead) (r : Result) (y : Option (List Byte)) : (s.finish t r y).views = s.views := rfl
@[simp] theorem State.finish_blocks (t : TakeHead) (r : Result) (y : Option (List Byte)) : (s.finish t r y).blocks = s.blocks := rfl
@[simp] theorem State.finish_intervals (t : TakeHead) (r : Result) (y : Option (List Byte)) : (s.finish t r y).intervals = s.intervals := rfl
@[simp] theorem State.finish_guards (t : TakeHead) (r : Result) (y : Option (List Byte)) : (s.finish t r y).guards = s.guards := rfl
@[simp] theorem State.finish_scenes (t : TakeHead) (r : Result) (y : Option (List Byte)) : (s.finish t r y).scenes = s.scenes := rfl
@[simp] theorem State.finish_ports (t : TakeHead) (r : Result) (y : Option (List Byte)) : (s.finish t r y).ports = s.ports := rfl
@[simp] theorem State.finish_portOut (t : TakeHead) (r : Result) (y : Option (List Byte)) : (s.finish t r y).portOut = s.portOut := rfl
@[simp] theorem State.finish_clock (t : TakeHead) (r : Result) (y : Option (List Byte)) : (s.finish t r y).clock = s.clock := rfl

/-! A record kept in hand. -/

@[simp] theorem State.hold_pending (t : TakeHead) (r : Result) (y : XpReply) : (s.hold t r y).pending = s.pending := rfl
@[simp] theorem State.hold_frame (t : TakeHead) (r : Result) (y : XpReply) : (s.hold t r y).frame = s.frame := rfl
@[simp] theorem State.hold_owed (t : TakeHead) (r : Result) (y : XpReply) : (s.hold t r y).owed = s.owed := rfl
@[simp] theorem State.hold_lanes (t : TakeHead) (r : Result) (y : XpReply) : (s.hold t r y).lanes = s.lanes := rfl
@[simp] theorem State.hold_samples (t : TakeHead) (r : Result) (y : XpReply) : (s.hold t r y).samples = s.samples := rfl
@[simp] theorem State.hold_line (t : TakeHead) (r : Result) (y : XpReply) : (s.hold t r y).line = s.line := rfl
@[simp] theorem State.hold_lineOut (t : TakeHead) (r : Result) (y : XpReply) : (s.hold t r y).lineOut = s.lineOut := rfl
@[simp] theorem State.hold_boards (t : TakeHead) (r : Result) (y : XpReply) : (s.hold t r y).boards = s.boards := rfl
@[simp] theorem State.hold_arb (t : TakeHead) (r : Result) (y : XpReply) : (s.hold t r y).arb = s.arb := rfl
@[simp] theorem State.hold_chans (t : TakeHead) (r : Result) (y : XpReply) : (s.hold t r y).chans = s.chans := rfl
@[simp] theorem State.hold_xps (t : TakeHead) (r : Result) (y : XpReply) : (s.hold t r y).xps = s.xps := rfl
@[simp] theorem State.hold_feedOn (t : TakeHead) (r : Result) (y : XpReply) : (s.hold t r y).feedOn = s.feedOn := rfl
@[simp] theorem State.hold_senior (t : TakeHead) (r : Result) (y : XpReply) : (s.hold t r y).senior = s.senior := rfl
@[simp] theorem State.hold_slots (t : TakeHead) (r : Result) (y : XpReply) : (s.hold t r y).slots = s.slots := rfl
@[simp] theorem State.hold_outputs (t : TakeHead) (r : Result) (y : XpReply) : (s.hold t r y).outputs = s.outputs := rfl
@[simp] theorem State.hold_views (t : TakeHead) (r : Result) (y : XpReply) : (s.hold t r y).views = s.views := rfl
@[simp] theorem State.hold_blocks (t : TakeHead) (r : Result) (y : XpReply) : (s.hold t r y).blocks = s.blocks := rfl
@[simp] theorem State.hold_intervals (t : TakeHead) (r : Result) (y : XpReply) : (s.hold t r y).intervals = s.intervals := rfl
@[simp] theorem State.hold_guards (t : TakeHead) (r : Result) (y : XpReply) : (s.hold t r y).guards = s.guards := rfl
@[simp] theorem State.hold_scenes (t : TakeHead) (r : Result) (y : XpReply) : (s.hold t r y).scenes = s.scenes := rfl
@[simp] theorem State.hold_ports (t : TakeHead) (r : Result) (y : XpReply) : (s.hold t r y).ports = s.ports := rfl
@[simp] theorem State.hold_portOut (t : TakeHead) (r : Result) (y : XpReply) : (s.hold t r y).portOut = s.portOut := rfl
@[simp] theorem State.hold_clock (t : TakeHead) (r : Result) (y : XpReply) : (s.hold t r y).clock = s.clock := rfl

end Sys2Proof.Machine
end

