-- ==== Sys2Proof/Laws/Clock.lean ====
section
/-! SUPPORT. The Clock Unit's operations keep the law of R151, and touch the clock record, the events and LOCK alone. -/

namespace Sys2Proof.Machine

theorem Clock.reset_law : resetClock.Law := ⟨rfl, rfl⟩

/-- The reference chosen for a source goes with that source. -/
theorem chooseRef_cases (src : ClockSource) (c1 c2 ext : Bool) :
    (chooseRef src c1 c2 ext = .internal ∧ src = .internal) ∨
      ((chooseRef src c1 c2 ext = .c1 ∨ chooseRef src c1 c2 ext = .c2) ∧ src = .portC) ∨
      (chooseRef src c1 c2 ext = .external ∧ src = .external) ∨
      (chooseRef src c1 c2 ext = .nothing ∧ src ≠ .internal) := by
  cases src <;> cases c1 <;> cases c2 <;> cases ext <;> simp [chooseRef, selectC]

/-- A reference that is found, kept or tried again keeps the law. -/
theorem Clock.beginAcquiring_law {k : Clock} (r : ClockRef) (cause : ClockCause)
    (h : ((r = .c1 ∨ r = .c2) ∧ k.preferred = .portC) ∨ (r = .external ∧ k.preferred = .external)) :
    (k.beginAcquiring r cause).after.Law := by
  rcases h with ⟨rfl | rfl, h⟩ | ⟨rfl, h⟩ <;> exact ⟨h, fun h => by simp [Clock.beginAcquiring, Clock.move] at h⟩

/-- A reference that is left as unfit keeps the law. -/
theorem Clock.leaveUnfit_law {k : Clock} (c1 c2 : Bool) (hk : k.Law) (hr : k.ref ≠ .internal) (hn : k.ref ≠ .nothing) :
    (k.leaveUnfit c1 c2).after.Law := by
  cases href : k.ref <;> simp_all [Clock.Law, Clock.leaveUnfit, Clock.move, failover] <;>
    cases c1 <;> cases c2 <;> simp_all

/-- Outside HOLDOVER an outside reference is tied to the preferred source alone. -/
theorem Clock.law_of_lock {k k' : Clock} (hk : k.Law) (hr : k'.ref = k.ref) (hp : k'.preferred = k.preferred)
    (hi : k.ref ≠ .internal) (hn : k.ref ≠ .nothing) (hl : k'.lock ≠ .holdover) : k'.Law := by
  cases href : k.ref <;> simp_all [Clock.Law]

/-- A judged block in ACQUIRING keeps the law. -/
theorem Clock.acquire_law {k : Clock} (inside : Bool) (rate : Nat) (hk : k.Law) (hl : k.lock = .acquiring) :
    (k.acquire inside rate).after.Law := by
  have hi : k.ref ≠ .internal := fun h => by simp [Clock.Law, h, hl] at hk
  have hn : k.ref ≠ .nothing := fun h => by simp [Clock.Law, h, hl] at hk
  refine Clock.law_of_lock hk ?_ ?_ hi hn ?_ <;> unfold Clock.acquire Clock.stay <;> dsimp only <;>
    generalize (if inside = true then min 64 (k.inRun + 1) else 0) = n <;> split <;> simp [hl]

/-- A judged block in LOCKED on an outside reference keeps the law. -/
theorem Clock.keepLock_law {k : Clock} (inside : Bool) (rate : Nat) (hk : k.Law) (hl : k.lock = .locked)
    (hi : k.ref ≠ .internal) : (k.keepLock inside rate).after.Law := by
  unfold Clock.keepLock Clock.stay
  split
  · exact hk
  · dsimp only
    split
    · cases href : k.ref <;> simp_all [Clock.Law]
    · exact hk

/-- What a judged boundary makes of the clock keeps the law. -/
theorem Clock.judge_law {k : Clock} (c1 c2 inside : Bool) (rate : Nat) (hk : k.Law) :
    (k.judge c1 c2 inside rate).after.Law := by
  have hc := chooseRef_cases k.preferred c1 c2 k.extFit
  unfold Clock.judge
  split
  · next hl =>
    split
    · simp_all [Clock.Law, Clock.stay]
    · split
      · next hi _ => exact Clock.keepLock_law _ _ hk hl hi
      · cases href : k.ref <;> simp_all [Clock.Law, Clock.stay]
  · next hl =>
    split
    · exact Clock.acquire_law _ _ hk hl
    · cases href : k.ref <;> simp_all [Clock.Law, Clock.stay]
  · next hl =>
    split
    · cases href : k.ref <;> simp_all [Clock.Law, Clock.beginAcquiring, Clock.move]
    · cases href : k.ref <;> simp_all [Clock.Law, Clock.stay]
    · dsimp only
      split
      · exact hk
      · next hne =>
        rw [not_or] at hne
        rcases hc with h | h | h | h
        · exact absurd h.1 hne.2
        · exact Clock.beginAcquiring_law _ _ (.inl h)
        · exact Clock.beginAcquiring_law _ _ (.inr h)
        · exact absurd h.1 hne.1

/-- What the choice of a source makes of the clock keeps the law. -/
theorem State.selectClock_law {s : State} (src : ClockSource) (tag : Half) (hk : s.clock.Law) :
    (s.selectClock src tag).clock.Law := by
  have hc := chooseRef_cases src s.ports.c1.state.fit s.ports.c2.state.fit s.clock.extFit
  unfold State.selectClock
  dsimp only
  generalize chooseRef src s.ports.c1.state.fit s.ports.c2.state.fit s.clock.extFit = r at hc ⊢
  split
  · next h =>
    obtain ⟨h1, h2⟩ := h
    rcases hc with h | h | h | h <;> rw [h1] at h
    · cases hr : s.clock.ref <;> simp_all [Clock.Law, Clock.chosenLock]
    · obtain ⟨h | h, hs⟩ := h <;> simp_all [Clock.Law, Clock.chosenLock]
    · simp_all [Clock.Law, Clock.chosenLock]
    · simp_all [Clock.Law, Clock.chosenLock]
  · simp only [State.putClock, State.raise, State.setEx, Clock.move]
    rcases hc with ⟨rfl, rfl⟩ | ⟨rfl | rfl, rfl⟩ | ⟨rfl, rfl⟩ | ⟨rfl, _⟩ <;> simp [Clock.Law, Clock.chosenLock] <;>
      split <;> simp

/-- A change put in force is the new clock record. -/
@[simp] theorem State.putClock_clock (s : State) (m : ClockMove) (tag : Option Half) :
    (s.putClock m tag).clock = m.after := by
  unfold State.putClock; split <;> rfl

/-- A change put in force touches the clock record, the events and the sticky notices alone. -/
theorem State.putClock_frame (s : State) (m : ClockMove) (tag : Option Half) :
    s.putClock m tag = { s with clock := m.after, ex := (s.putClock m tag).ex } := by
  unfold State.putClock; split <;> rfl

/-- The Clock Unit's boundary work keeps the law. -/
theorem State.clockBoundary_law {s : State} (ph : PhaseInput) (hk : s.clock.Law) : (s.clockBoundary ph).clock.Law := by
  have hk' : ({ s.clock with
      extFit := s.clock.edge, edge := false, c1 := s.ports.c1.state, c2 := s.ports.c2.state } : Clock).Law := hk
  unfold State.clockBoundary
  simp only [State.putClock_clock]
  split
  · next h =>
    refine Clock.leaveUnfit_law _ _ hk' ?_ h.1
    intro hr
    have h2 := h.2
    rw [hr] at h2
    simp [ClockRef.fit] at h2
  · exact Clock.judge_law _ _ _ _ hk'

/-- An acquisition that gives up keeps the law. -/
theorem State.acquisitionGivesUp_law {s : State} (hk : s.clock.Law) : s.acquisitionGivesUp.clock.Law := by
  unfold State.acquisitionGivesUp
  split
  · next h =>
    simp only [Clock.timeoutDue, Bool.and_eq_true, beq_iff_eq] at h
    rw [State.putClock_clock]
    cases hr : s.clock.ref <;> simp_all [Clock.Law]
  · exact hk

/-- The retry of a REST holdover keeps the law. -/
theorem State.clockRetries_law {s : State} (hk : s.clock.Law) : s.clockRetries.clock.Law := by
  unfold State.clockRetries
  split
  · next h =>
    simp only [Clock.retryDue, Bool.and_eq_true, beq_iff_eq] at h
    rw [State.putClock_clock]
    cases hr : s.clock.ref <;> simp_all [Clock.Law, Clock.beginAcquiring, Clock.move]
  · exact hk

/-- The Clock Unit's boundary work brought to its end keeps the law. -/
theorem State.clockSettled_law {s : State} (hk : s.clock.Law) : s.clockSettled.clock.Law :=
  State.clockRetries_law (State.acquisitionGivesUp_law hk)

/-- The Clock Unit's boundary work brought to its end touches the clock record and the exchange alone. -/
theorem State.clockSettled_frame (s : State) :
    s.clockSettled = { s with clock := s.clockSettled.clock, ex := s.clockSettled.ex } := by
  have h1 : s.acquisitionGivesUp = { s with clock := s.acquisitionGivesUp.clock, ex := s.acquisitionGivesUp.ex } := by
    unfold State.acquisitionGivesUp
    split
    · rw [State.putClock_frame]
    · rfl
  have h2 (t : State) : t.clockRetries = { t with clock := t.clockRetries.clock, ex := t.clockRetries.ex } := by
    unfold State.clockRetries
    split
    · rw [State.putClock_frame]
    · rfl
  have h3 := h2 s.acquisitionGivesUp
  unfold State.clockSettled
  rw [h3, h1]

/-- Where no countdown of the clock has run out, its boundary work is whole. -/
theorem State.clockSettled_of_calm {s : State} (h1 : s.clock.timeoutDue = false) (h2 : s.clock.retryDue = false) :
    s.clockSettled = s := by
  simp [State.clockSettled, State.acquisitionGivesUp, State.clockRetries, h1, h2]

end Sys2Proof.Machine
end

