-- ==== Sys2Proof/Laws/Memory.lean ====
section
/-! SUPPORT. The laws of the exchange memory: a read after a write, the bytes a write leaves alone, and the canonical form
that every memory operation keeps. -/

namespace Sys2Proof.Machine

/-! ### One byte -/

theorem readByte_consByte_other (m : List Host.Cell) {a b : Nat} (v : Byte) (h : b ≠ a) :
    readByte (consByte a v m) b = readByte m b := by
  unfold consByte
  split
  · rfl
  · simp [readByte, Ne.symm h]

/-- A write leaves every other byte alone. -/
theorem readByte_writeByte_other (m : List Host.Cell) {a b : Nat} (v : Byte) (h : b ≠ a) :
    readByte (writeByte m a v) b = readByte m b := by
  induction m with
  | nil => exact readByte_consByte_other [] v h
  | cons x rest ih =>
    simp only [writeByte]
    split
    · exact readByte_consByte_other _ v h
    · split
      · rename_i _ e
        rw [readByte_consByte_other rest v h]
        simp [readByte, show x.1 ≠ b by omega]
      · simp [readByte, ih]

/-- An offset below every listed one reads as an unlisted byte. -/
theorem readByte_below {m : List Host.Cell} {a : Nat} (h : ∀ x ∈ m, a < x.1) : readByte m a = unlistedByte := by
  induction m with
  | nil => rfl
  | cons x rest ih =>
    have hx := h x (by simp)
    simp only [readByte, show ¬ x.1 = a by omega, if_false]
    exact ih fun y hy => h y (by simp [hy])

theorem readByte_consByte_same {m : List Host.Cell} {a : Nat} {v : Byte} (h : ∀ x ∈ m, a < x.1) :
    readByte (consByte a v m) a = v := by
  unfold consByte
  split
  · rw [readByte_below h]; symm; assumption
  · simp [readByte]

/-- A read after a write to the same place gives the value written. -/
theorem readByte_writeByte_same {m : List Host.Cell} (a : Nat) (v : Byte) (h : Memory.wf m) :
    readByte (writeByte m a v) a = v := by
  obtain ⟨hp, hv⟩ := h
  induction m with
  | nil => exact readByte_consByte_same (by simp)
  | cons x rest ih =>
    rw [List.pairwise_cons] at hp
    simp only [writeByte]
    split
    · rename_i hlt
      refine readByte_consByte_same fun y hy => ?_
      rcases List.mem_cons.1 hy with rfl | hy
      · exact hlt
      · have := hp.1 y hy; omega
    · split
      · rename_i _ e
        exact readByte_consByte_same fun y hy => by have := hp.1 y hy; omega
      · simp only [readByte]
        rw [if_neg (by omega)]
        exact ih hp.2 fun y hy => hv y (by simp [hy])

/-! ### The canonical form -/

theorem consByte_wf {m : List Host.Cell} {a : Nat} {v : Byte} (h : Memory.wf m) (ha : ∀ x ∈ m, a < x.1) :
    Memory.wf (consByte a v m) := by
  unfold consByte
  split
  · exact h
  · rename_i hv
    refine ⟨List.pairwise_cons.2 ⟨ha, h.1⟩, fun x hx => ?_⟩
    rcases List.mem_cons.1 hx with rfl | hx
    · exact hv
    · exact h.2 x hx

/-- The keys of a list after a write: those it had, and the offset written. -/
theorem writeByte_keys (m : List Host.Cell) (a : Nat) (v : Byte) {x : Host.Cell} (hx : x ∈ writeByte m a v) :
    x.1 = a ∨ x ∈ m := by
  have hc : ∀ (m : List Host.Cell), x ∈ consByte a v m → x.1 = a ∨ x ∈ m := by
    intro m h
    unfold consByte at h
    split at h
    · exact .inr h
    · rcases List.mem_cons.1 h with rfl | h
      · exact .inl rfl
      · exact .inr h
  induction m with
  | nil => exact hc [] hx
  | cons y rest ih =>
    simp only [writeByte] at hx
    split at hx
    · exact hc _ hx
    · split at hx
      · exact (hc _ hx).imp_right fun h => by simp [h]
      · rcases List.mem_cons.1 hx with rfl | hx
        · simp
        · exact (ih hx).imp_right fun h => by simp [h]

/-- A write keeps the canonical form. -/
theorem writeByte_wf {m : List Host.Cell} (a : Nat) (v : Byte) (h : Memory.wf m) : Memory.wf (writeByte m a v) := by
  obtain ⟨hp, hv⟩ := h
  induction m with
  | nil => exact consByte_wf ⟨hp, hv⟩ (by simp)
  | cons x rest ih =>
    have hp' := List.pairwise_cons.1 hp
    have hrest : Memory.wf rest := ⟨hp'.2, fun y hy => hv y (by simp [hy])⟩
    simp only [writeByte]
    split
    · rename_i hlt
      refine consByte_wf ⟨hp, hv⟩ fun y hy => ?_
      rcases List.mem_cons.1 hy with rfl | hy
      · exact hlt
      · have := hp'.1 y hy; omega
    · split
      · exact consByte_wf hrest fun y hy => by have := hp'.1 y hy; omega
      · have := ih hp'.2 hrest.2
        refine ⟨List.pairwise_cons.2 ⟨fun y hy => ?_, this.1⟩, fun y hy => ?_⟩
        · rcases writeByte_keys rest a v hy with e | hy
          · show x.1 < y.1; omega
          · exact hp'.1 y hy
        · rcases List.mem_cons.1 hy with rfl | hy
          · exact hv _ (by simp)
          · exact this.2 y hy

theorem writeBytes_wf (vs : List Byte) {m : List Host.Cell} (a : Nat) (h : Memory.wf m) :
    Memory.wf (writeBytes m a vs) := by
  induction vs generalizing m a with
  | nil => exact h
  | cons v vs ih => exact ih (a + 1) (writeByte_wf a v h)

theorem controllerWrite_wf {m : List Host.Cell} (a : Nat) (v : Byte) (h : Memory.wf m) :
    Memory.wf (controllerWrite m a v) := by
  unfold controllerWrite
  split
  · exact writeByte_wf a v h
  · exact h

theorem controllerWrites_wf (vs : List Byte) {m : List Host.Cell} (a : Nat) (h : Memory.wf m) :
    Memory.wf (controllerWrites m a vs) := by
  induction vs generalizing m a with
  | nil => exact h
  | cons v vs ih => exact ih (a + 1) (controllerWrite_wf a v h)

theorem controllerCells_wf (ws : List Host.Cell) {m : List Host.Cell} (h : Memory.wf m) :
    Memory.wf (controllerCells m ws) := by
  induction ws generalizing m with
  | nil => exact h
  | cons w ws ih => exact ih (controllerWrite_wf w.1 w.2 h)

/-- The memory after power-on is in canonical form. -/
theorem reset_mem_wf : Memory.wf State.reset.ex.mem :=
  ⟨List.Pairwise.nil, fun _ h => nomatch h⟩

/-! ### Runs of bytes -/

/-- A write of bytes leaves every byte outside its run alone. -/
theorem readByte_writeBytes_other (vs : List Byte) (m : List Host.Cell) {a b : Nat}
    (h : b < a ∨ a + vs.length ≤ b) : readByte (writeBytes m a vs) b = readByte m b := by
  induction vs generalizing m a with
  | nil => rfl
  | cons v vs ih =>
    simp only [List.length_cons] at h
    simp only [writeBytes]
    rw [ih _ (by omega), readByte_writeByte_other m v (by omega)]

/-- A byte inside the run of a write of bytes reads as the byte written there. -/
theorem readByte_writeBytes_same (vs : List Byte) {m : List Host.Cell} (a : Nat) (h : Memory.wf m) (i : Nat)
    (hi : i < vs.length) : readByte (writeBytes m a vs) (a + i) = vs[i] := by
  induction vs generalizing m a i with
  | nil => simp at hi
  | cons v vs ih =>
    simp only [writeBytes]
    cases i with
    | zero =>
      rw [readByte_writeBytes_other vs _ (by omega)]
      exact readByte_writeByte_same a v h
    | succ j =>
      have := ih (a + 1) (writeByte_wf a v h) j (by simpa using hi)
      rw [show a + (j + 1) = a + 1 + j by omega]
      simpa using this

theorem controllerWrite_other (m : List Host.Cell) {a b : Nat} (v : Byte) (h : b ≠ a) :
    readByte (controllerWrite m a v) b = readByte m b := by
  unfold controllerWrite
  split
  · exact readByte_writeByte_other m v h
  · rfl

theorem readByte_controllerWrites_other (vs : List Byte) (m : List Host.Cell) {a b : Nat}
    (h : b < a ∨ a + vs.length ≤ b) : readByte (controllerWrites m a vs) b = readByte m b := by
  induction vs generalizing m a with
  | nil => rfl
  | cons v vs ih =>
    simp only [List.length_cons] at h
    simp only [controllerWrites]
    rw [ih _ (by omega), controllerWrite_other m v (by omega)]

/-- Inside the anchor and the request window a controller write of bytes is the plain write of bytes. -/
theorem controllerWrites_eq (vs : List Byte) (m : List Host.Cell) {a : Nat} (h : Config.anchor ≤ a)
    (h' : a + vs.length ≤ Config.windowEnd) : controllerWrites m a vs = writeBytes m a vs := by
  induction vs generalizing m a with
  | nil => rfl
  | cons v vs ih =>
    simp only [List.length_cons] at h'
    simp only [controllerWrites, writeBytes, controllerWrite]
    rw [if_pos (by omega), ih _ (by omega) (by omega)]

/-- A read of bytes after a write of bytes at the same place. -/
theorem readBytes_writeBytes_same (vs : List Byte) {m : List Host.Cell} (a : Nat) (h : Memory.wf m) :
    readBytes (writeBytes m a vs) a vs.length = vs := by
  have key : ∀ (m : List Host.Cell) (a n : Nat), readBytes m a n = (List.range n).map fun i => readByte m (a + i) := by
    intro m a n
    induction n generalizing a with
    | zero => rfl
    | succ n ih =>
      rw [List.range_succ_eq_map]
      simp only [readBytes, ih, List.map_cons, List.map_map, Nat.add_zero]
      congr 1
      refine List.map_congr_left fun i _ => ?_
      simp [Nat.add_assoc, Nat.add_comm 1]
  rw [key]
  refine List.ext_getElem (by simp) fun i h₁ h₂ => ?_
  simp only [List.getElem_map, List.getElem_range]
  exact readByte_writeBytes_same vs a h i h₂

/-- A read of bytes outside the run of a write. -/
theorem readBytes_writeBytes_other (n : Nat) (vs : List Byte) (m : List Host.Cell) {a b : Nat}
    (h : b + n ≤ a ∨ a + vs.length ≤ b) : readBytes (writeBytes m a vs) b n = readBytes m b n := by
  induction n generalizing b with
  | zero => rfl
  | succ n ih =>
    simp only [readBytes]
    rw [ih (by omega), readByte_writeBytes_other vs m (by omega)]

theorem readBytes_controllerWrites_other (n : Nat) (vs : List Byte) (m : List Host.Cell) {a b : Nat}
    (h : b + n ≤ a ∨ a + vs.length ≤ b) : readBytes (controllerWrites m a vs) b n = readBytes m b n := by
  induction n generalizing b with
  | zero => rfl
  | succ n ih =>
    simp only [readBytes]
    rw [ih (by omega), readByte_controllerWrites_other vs m (by omega)]

theorem padTo_length {n : Nat} {bs : List Byte} (h : bs.length ≤ n) : (padTo n bs).length = n := by
  simp [padTo]; omega

end Sys2Proof.Machine
end

