-- ==== Sys2Proof/Laws/Exchange.lean ====
section
/-! SUPPORT. What handing events over, offering a record, and writing an outcome can do: the lemmas that every request's
take rests on. -/

namespace Sys2Proof.Machine

/-! ### Handing events over touches the queue, the losses and the sticky bits alone -/

/-- What joining an event can change. -/
theorem Exchange.join_frame (x : Exchange) (q : QueuedEvent) :
    x.join q = { x with
      queue := (x.join q).queue, lost := (x.join q).lost, firstLost := (x.join q).firstLost,
      lastLost := (x.join q).lastLost, sticky := (x.join q).sticky } := by
  unfold Exchange.join; split <;> rfl

/-- What handing several events over can change. -/
theorem Exchange.joinAll_frame (stamp : Word) (es : List Event) (x : Exchange) :
    x.joinAll stamp es = { x with
      queue := (x.joinAll stamp es).queue, lost := (x.joinAll stamp es).lost,
      firstLost := (x.joinAll stamp es).firstLost, lastLost := (x.joinAll stamp es).lastLost,
      sticky := (x.joinAll stamp es).sticky } := by
  induction es generalizing x with
  | nil => rfl
  | cons e es ih =>
    have hj := x.join_frame { stamp := stamp, event := e }
    change (x.join { stamp := stamp, event := e }).joinAll stamp es = _
    rw [show x.joinAll stamp (e :: es) = (x.join { stamp := stamp, event := e }).joinAll stamp es from rfl]
    generalize x.join { stamp := stamp, event := e } = y at hj
    rw [ih y, hj]

@[simp] theorem Exchange.joinAll_nil (x : Exchange) (stamp : Word) : x.joinAll stamp [] = x := rfl

theorem Exchange.joinAll_cons (x : Exchange) (stamp : Word) (e : Event) (es : List Event) :
    x.joinAll stamp (e :: es) = (x.join { stamp := stamp, event := e }).joinAll stamp es := rfl

theorem Exchange.joinAll_append (x : Exchange) (stamp : Word) (es fs : List Event) :
    x.joinAll stamp (es ++ fs) = (x.joinAll stamp es).joinAll stamp fs := by
  simp [Exchange.joinAll]

/-- Handing an event over does not read or touch the memory. -/
theorem Exchange.join_withMem (x : Exchange) (q : QueuedEvent) (m : List Host.Cell) :
    ({ x with mem := m } : Exchange).join q = { x.join q with mem := m } := by
  unfold Exchange.join; dsimp only; split <;> rfl

theorem Exchange.joinAll_withMem (stamp : Word) (es : List Event) (x : Exchange) (m : List Host.Cell) :
    ({ x with mem := m } : Exchange).joinAll stamp es = { x.joinAll stamp es with mem := m } := by
  induction es generalizing x with
  | nil => rfl
  | cons e es ih => simp only [Exchange.joinAll_cons, Exchange.join_withMem, ih]

theorem Exchange.join_queue_length (x : Exchange) (q : QueuedEvent) (h : x.queue.length ≤ Config.queueDepth) :
    (x.join q).queue.length ≤ Config.queueDepth := by
  unfold Exchange.join
  split
  · simp only [List.length_append, List.length_singleton]; omega
  · exact h

theorem Exchange.joinAll_queue_length (stamp : Word) (es : List Event) (x : Exchange)
    (h : x.queue.length ≤ Config.queueDepth) : (x.joinAll stamp es).queue.length ≤ Config.queueDepth := by
  induction es generalizing x with
  | nil => exact h
  | cons e es ih => exact ih _ (x.join_queue_length _ h)

/-! ### The record offered by the controller -/

theorem recordBytes_length (h : ReqHead) (kind : Byte) {args : List Byte} (ha : args.length ≤ 16) :
    (recordBytes h kind args).length = 32 := by
  simp [recordBytes, halfBytes, padTo_length ha]

theorem wordBytes_length (w : Word) : (wordBytes w).length = 4 := rfl

/-- Offering a record changes the memory alone. -/
theorem Exchange.offer_frame (x : Exchange) (h : ReqHead) (kind : Byte) (args : List Byte) :
    x.offer h kind args = { x with mem := (x.offer h kind args).mem } := rfl

theorem Exchange.offer_wf (x : Exchange) (h : ReqHead) (kind : Byte) (args : List Byte) (hm : Memory.wf x.mem) :
    Memory.wf (x.offer h kind args).mem := by
  unfold Exchange.offer
  refine controllerWrites_wf _ _ ?_
  split
  · exact controllerWrites_wf _ _ hm
  · exact hm

/-- A byte outside the record and outside the link reads as before the offer. -/
theorem Exchange.offer_other (x : Exchange) (h : ReqHead) (kind : Byte) {args : List Byte} (ha : args.length ≤ 16)
    {a : Nat} (h1 : a < h.off.toNat ∨ h.off.toNat + 32 ≤ a) (h2 : a < x.tail + 8 ∨ x.tail + 12 ≤ a) :
    readByte (x.offer h kind args).mem a = readByte x.mem a := by
  unfold Exchange.offer
  rw [readByte_controllerWrites_other _ _ (by rw [wordBytes_length]; omega)]
  split
  · exact readByte_controllerWrites_other _ _ (by rw [recordBytes_length _ _ ha]; omega)
  · rfl

theorem readBytes_congr {m m' : List Host.Cell} {a n : Nat} (h : ∀ i, i < n → readByte m (a + i) = readByte m' (a + i)) :
    readBytes m a n = readBytes m' a n := by
  induction n generalizing a with
  | zero => rfl
  | succ n ih =>
    have h0 := h 0 (by omega)
    simp only [Nat.add_zero] at h0
    simp only [readBytes, h0]
    rw [ih (a := a + 1)]
    intro i hi
    have := h (i + 1) (by omega)
    rwa [show a + (i + 1) = a + 1 + i by omega] at this

/-! ### What Ready gives -/

theorem Exchange.tail_of_atTail {x : Exchange} (h : x.atTail = true) : x.tail = x.cursor := by
  simp [Exchange.atTail] at h; exact h.2

theorem Exchange.inHand_of_atTail {x : Exchange} (h : x.atTail = true) : x.inHand = none := by
  simp [Exchange.atTail] at h; exact h.1.2

/-- What a walk trigger can change. -/
theorem Exchange.trigger_frame (x : Exchange) :
    x.trigger = { x with walking := x.trigger.walking, again := x.trigger.again } := by
  unfold Exchange.trigger; split <;> rfl

/-- What the expiry of the poll countdown can change. -/
theorem Exchange.pollExpires_frame (x : Exchange) :
    x.pollExpires = { x with
      walking := x.pollExpires.walking, again := x.pollExpires.again, pollCountdown := x.pollExpires.pollCountdown } := by
  unfold Exchange.pollExpires
  split
  · rw [Exchange.trigger_frame]
  · rfl

@[simp] theorem Exchange.pollExpires_mem (x : Exchange) : x.pollExpires.mem = x.mem := by rw [Exchange.pollExpires_frame]

/-- A change of ENABLE touches no memory. -/
@[simp] theorem Exchange.setEnable_mem (x : Exchange) (on : Bool) : (x.setEnable on).mem = x.mem := by
  unfold Exchange.setEnable
  split
  · rfl
  · split
    · rw [Exchange.trigger_frame]
    · exact x.pollExpires_mem

/-- A write of a whole word to a register touches no memory. -/
@[simp] theorem Exchange.writeReg_mem (x : Exchange) (r : Reg) (v : Word) : (x.writeReg r v).mem = x.mem := by
  cases r <;> simp only [Exchange.writeReg, Exchange.askClear, Exchange.cleared, Exchange.setBlocks,
    Exchange.emptyStore, Exchange.trigger, Exchange.giveBack] <;> (repeat' split) <;>
    first | rfl | simp only [Exchange.setEnable_mem]

theorem goodOffset_iff (n : Nat) : goodOffset n = true ↔ n % 64 = 0 ∧ 0x80 ≤ n ∧ n ≤ 0xFFC0 := by
  simp [goodOffset, and_assoc]

/-- The tail of a ready exchange is the anchor or a record's offset, so it is 64-aligned. -/
theorem State.Ready.tail_aligned {s : State} {h : ReqHead} (hr : s.Ready h) : s.ex.tail % 64 = 0 := by
  obtain ⟨ht, _, _, _, hw⟩ := hr
  rw [Exchange.tail_of_atTail ht]
  rcases hw.1 with h | h
  · rw [h]; rfl
  · exact ((goodOffset_iff _).1 h).1

/-- A ready exchange takes the record at once. -/
theorem State.Ready.request {s : State} {h : ReqHead} (hr : s.Ready h) (kind : Byte) (args : List Byte)
    (serve : State → TakeHead → State) :
    s.request h kind args serve = .next (serve (s.setEx (s.ex.offer h kind args)) (takeHead h kind)) := by
  simp [State.request, hr.1, hr.2.1]

/-! ### The record as it stands after the offer -/

/-- A byte of an offered record reads as the controller wrote it, outside the next field it is linked by. -/
theorem Exchange.offer_record {x : Exchange} {h : ReqHead} (kind : Byte) {args : List Byte} (hw : h.wf = true)
    (hm : Memory.wf x.mem) (ha : args.length ≤ 16) {i a : Nat} (hi : i < 32) (hai : a = h.off.toNat + i)
    (hl : a < x.tail + 8 ∨ x.tail + 12 ≤ a) :
    readByte (x.offer h kind args).mem a = (recordBytes h kind args).getD i 0#8 := by
  obtain ⟨_, hge, hle⟩ := (goodOffset_iff _).1 hw
  have hlen := recordBytes_length h kind ha
  subst hai
  simp only [Exchange.offer, hw, if_true]
  rw [readByte_controllerWrites_other _ _ (by rw [wordBytes_length]; omega)]
  rw [controllerWrites_eq _ _ (by simp [Config.anchor]; omega) (by rw [hlen]; simp [Config.windowEnd]; omega)]
  rw [readByte_writeBytes_same _ _ hm i (by omega)]
  simp [List.getD_eq_getElem?_getD, hlen, hi]

/-- Offering a record leaves its tag, channel, feed and next fields as the controller wrote them. -/
theorem Exchange.offer_header {x : Exchange} {h : ReqHead} (kind : Byte) {args : List Byte} (hw : h.wf = true)
    (hm : Memory.wf x.mem) (ha : args.length ≤ 16) : x.HeaderStands h (x.offer h kind args) := by
  intro i a hi hai hl
  rw [Exchange.offer_record kind hw hm ha (i := i + 4) (by omega) (by omega) hl]
  have : i = 0 ∨ i = 1 ∨ i = 2 ∨ i = 3 ∨ i = 4 ∨ i = 5 ∨ i = 6 ∨ i = 7 ∨ i = 8 ∨ i = 9 ∨ i = 10 ∨ i = 11 := by omega
  rcases this with rfl | rfl | rfl | rfl | rfl | rfl | rfl | rfl | rfl | rfl | rfl | rfl <;> rfl

/-- What reads as the offered record in its first words stands as the controller wrote it. -/
theorem Exchange.HeaderStands.of_eq {x y z : Exchange} {h : ReqHead} (hs : x.HeaderStands h z)
    (he : ∀ a, h.off.toNat + 4 ≤ a → a < h.off.toNat + 16 → readByte y.mem a = readByte z.mem a) : x.HeaderStands h y :=
  fun i a hi hai hl => (he a (by omega) (by omega)).trans (hs i a hi hai hl)

/-! ### The outcome of a take -/

/-- An outcome written into the record of a ready exchange: the record's take is complete. The exchange u is what the
owning block's action left, with the memory still as before the offer. -/
theorem Exchange.took_finish {s : State} {h : ReqHead} (hr : s.Ready h) {u : Exchange} {kind : Byte} {args : List Byte}
    (ha : args.length ≤ 16) {r : Result} {reply : Option (List Byte)} (hl : ∀ bs, reply = some bs → bs.length ≤ 32)
    (hmem : u.mem = s.ex.mem) (htail : u.tail = s.ex.tail) (hen : u.enable = true) (hcl : u.clearAsked = false)
    (hih : u.inHand = none) :
    u.Took h kind r reply (({ u with mem := (s.ex.offer h kind args).mem } : Exchange).finish (takeHead h kind) r reply) := by
  obtain ⟨hal, hge, hle⟩ := (goodOffset_iff _).1 hr.2.1
  have hta := hr.tail_aligned
  have hw : Memory.wf (s.ex.offer h kind args).mem := s.ex.offer_wf h kind args hr.2.2.2.2.2.2.1
  have key : ({ u with mem := (s.ex.offer h kind args).mem } : Exchange).finish (takeHead h kind) r reply =
      { u with
        cursor := h.off.toNat
        mem := (({ u with mem := (s.ex.offer h kind args).mem } : Exchange).writeOutcome (takeHead h kind) r reply).mem } := by
    simp [Exchange.finish, Exchange.complete, Exchange.writeOutcome, takeHead, hen, hcl, ← hih]
  rw [key]
  have hsame : ∀ a, (a < h.off.toNat ∨ h.off.toNat + 64 ≤ a) → (a < s.ex.tail + 8 ∨ s.ex.tail + 12 ≤ a) →
      readByte (s.ex.offer h kind args).mem a = readByte s.ex.mem a := fun a h1 h2 =>
    s.ex.offer_other h kind ha (by omega) h2
  have hst : u.HeaderStands h (s.ex.offer h kind args) := by
    have := Exchange.offer_header (x := s.ex) (h := h) kind hr.2.1 hr.2.2.2.2.2.2.1 ha
    unfold Exchange.HeaderStands at this ⊢
    rwa [htail]
  cases reply with
  | none =>
    refine ⟨rfl, ?_, ?_, hst.of_eq fun a h1 h2 => ?_, ?_⟩
    · simp only [Exchange.writeOutcome, takeHead]
      exact readBytes_writeBytes_same [2#8, kind, h.source, r.code] _ hw
    rotate_left
    · simp only [Exchange.writeOutcome, takeHead]
      exact readByte_writeBytes_other _ _ (by simp; omega)
    rotate_left
    · simp only [Exchange.writeOutcome, takeHead]
      rw [readBytes_writeBytes_other _ _ _ (by right; simp)]
      rw [hmem]
      exact readBytes_congr fun i hi => s.ex.offer_other h kind ha (by omega) (by omega)
    · intro a h1 h2
      simp only [Exchange.writeOutcome, takeHead]
      rw [readByte_writeBytes_other _ _ (by simp; omega), hmem]
      rw [htail] at h2
      exact hsame a h1 h2
  | some bs =>
    have hlen := padTo_length (hl bs rfl)
    refine ⟨rfl, ?_, ?_, hst.of_eq fun a h1 h2 => ?_, ?_⟩
    · simp only [Exchange.writeOutcome, takeHead]
      exact readBytes_writeBytes_same [2#8, kind, h.source, r.code] _ (writeBytes_wf _ _ hw)
    rotate_left
    · simp only [Exchange.writeOutcome, takeHead]
      rw [readByte_writeBytes_other _ _ (by simp; omega), readByte_writeBytes_other _ _ (by rw [hlen]; omega)]
    rotate_left
    · simp only [Exchange.writeOutcome, takeHead]
      rw [readBytes_writeBytes_other _ _ _ (by right; simp)]
      have := readBytes_writeBytes_same (padTo 32 bs) (h.off.toNat + 32) hw
      rwa [hlen] at this
    · intro a h1 h2
      simp only [Exchange.writeOutcome, takeHead]
      rw [readByte_writeBytes_other _ _ (by simp; omega), readByte_writeBytes_other _ _ (by rw [hlen]; omega), hmem]
      rw [htail] at h2
      exact hsame a h1 h2

/-- A record kept in hand in a ready exchange. -/
theorem Exchange.kept_hold {s : State} {h : ReqHead} (hr : s.Ready h) {u : Exchange} {kind : Byte} {args : List Byte}
    (ha : args.length ≤ 16) {r : Result} {reply : XpReply} (hmem : u.mem = s.ex.mem) (htail : u.tail = s.ex.tail) :
    u.Kept h kind r reply { u with
      mem := (s.ex.offer h kind args).mem
      inHand := some { head := takeHead h kind, result := r, reply := reply, ready := none } } := by
  obtain ⟨hal, hge, hle⟩ := (goodOffset_iff _).1 hr.2.1
  have hta := hr.tail_aligned
  have hb := fun i (hi : i < 4) => Exchange.offer_record (x := s.ex) kind hr.2.1 hr.2.2.2.2.2.2.1 ha (i := i)
    (show i < 32 by omega) rfl (by omega)
  refine ⟨rfl, ?_, ?_, ?_, ?_⟩
  · simp only [readBytes, Nat.add_assoc]
    rw [show h.off.toNat = h.off.toNat + 0 from rfl, hb 0 (by omega), Nat.add_zero, hb 1 (by omega), hb 2 (by omega),
      hb 3 (by omega)]
    rfl
  · rw [hmem]
    exact readBytes_congr fun i hi => s.ex.offer_other h kind ha (by omega) (by omega)
  · have := Exchange.offer_header (x := s.ex) (h := h) kind hr.2.1 hr.2.2.2.2.2.2.1 ha
    unfold Exchange.HeaderStands at this ⊢
    rwa [htail]
  · intro a h1 h2
    rw [hmem]
    rw [htail] at h2
    exact s.ex.offer_other h kind ha (by omega) h2

/-- What the owning block's action must leave of the exchange for the outcome to complete the take. -/
def Exchange.TakeReady (x y : Exchange) : Prop :=
  y.mem = x.mem ∧ y.tail = x.tail ∧ y.enable = true ∧ y.clearAsked = false ∧ y.inHand = none

theorem State.Ready.takeReady {s : State} {h : ReqHead} (hr : s.Ready h) : s.ex.TakeReady s.ex :=
  ⟨rfl, rfl, hr.2.2.1, hr.2.2.2.1, Exchange.inHand_of_atTail hr.1⟩

/-- Handing events over keeps an exchange ready to complete a take. -/
theorem Exchange.TakeReady.joinAll {x y : Exchange} (hy : x.TakeReady y) (stamp : Word) (es : List Event) :
    x.TakeReady (y.joinAll stamp es) := by
  rw [Exchange.joinAll_frame]; exact hy

/-- A request of a ready exchange whose take ends with an outcome is served. -/
theorem served_of_finish {s u : State} {h : ReqHead} (hr : s.Ready h) {i : Instr} {kind : Byte} {args : List Byte}
    {serve : State → TakeHead → State} {r : Result} {reply : Option (List Byte)}
    (hi : exec i s = s.request h kind args serve) (ha : args.length ≤ 16)
    (hl : ∀ bs, reply = some bs → bs.length ≤ 32) (hu : s.ex.TakeReady u.ex)
    (hs : serve (s.setEx (s.ex.offer h kind args)) (takeHead h kind) =
      (u.setEx { u.ex with mem := (s.ex.offer h kind args).mem }).finish (takeHead h kind) r reply) :
    Served i s u h kind r reply := by
  obtain ⟨h1, h2, h3, h4, h5⟩ := hu
  exact ⟨_, (hi.trans (hr.request kind args serve)).trans (congrArg _ hs), rfl,
    Exchange.took_finish hr ha hl h1 h2 h3 h4 h5⟩

/-- A request of a ready exchange whose record stays in hand waits for its first new sample. -/
theorem waits_of_hold {s u : State} {h : ReqHead} (hr : s.Ready h) {i : Instr} {kind : Byte} {args : List Byte}
    {serve : State → TakeHead → State} {r : Result} {reply : XpReply}
    (hi : exec i s = s.request h kind args serve) (ha : args.length ≤ 16) (hu : s.ex.TakeReady u.ex)
    (hs : serve (s.setEx (s.ex.offer h kind args)) (takeHead h kind) =
      (u.setEx { u.ex with mem := (s.ex.offer h kind args).mem }).hold (takeHead h kind) r reply) :
    Waits i s u h kind r reply := by
  obtain ⟨h1, h2, _, _, _⟩ := hu
  exact ⟨_, (hi.trans (hr.request kind args serve)).trans (congrArg _ hs), rfl, Exchange.kept_hold hr ha h1 h2⟩

end Sys2Proof.Machine
end

