-- ==== Sys2Proof/Laws/Layout.lean ====
section
/-! SUPPORT. The fields of the layouts of section 9.7, as the model writes them, are little-endian numbers and bytes of
flags. -/

namespace Sys2Proof.Machine

/-- Byte i of the two's complement of a number is that byte of the bits that hold it. -/
theorem ofInt_div_byte (w i : Nat) (x : Int) (h : 8 * i + 8 ≤ w) :
    BitVec.ofInt 8 (x / 256 ^ i) = (BitVec.ofInt w x).extractLsb' (8 * i) 8 := by
  have h256 : (256 : Int) ^ i = 2 ^ (8 * i) := by rw [pow_mul]; norm_num
  have hw : (2 : Int) ^ w = 2 ^ (8 * i) * (2 ^ 8 * 2 ^ (w - (8 * i + 8))) := by
    rw [← pow_add, ← pow_add]; congr 1; omega
  apply BitVec.eq_of_toNat_eq
  rw [h256, BitVec.extractLsb'_toNat, BitVec.toNat_ofInt, BitVec.toNat_ofInt, Nat.shiftRight_eq_div_pow]
  apply Int.ofNat.inj
  generalize hA : (2 : Int) ^ (8 * i) = A at *
  generalize hB : (2 : Int) ^ (w - (8 * i + 8)) = B at *
  have hAp : 0 < A := by rw [← hA]; positivity
  have hBp : 0 < B := by rw [← hB]; positivity
  simp only [Int.ofNat_eq_natCast]
  push_cast
  rw [hw, hA, Int.toNat_of_nonneg (Int.emod_nonneg _ (by norm_num)), Int.toNat_of_nonneg (Int.emod_nonneg _ (by positivity)),
    Int.emod_def x, sub_eq_add_neg, mul_assoc, ← mul_neg, Int.add_mul_ediv_left _ _ hAp.ne', ← mul_neg, mul_assoc]
  exact (Int.add_mul_emod_self_left _ (2 ^ 8) _).symm

/-- A 16-bit field. -/
theorem halfBytes_ofInt (x : Int) : halfBytes (BitVec.ofInt 16 x) = little 2 x := by
  simp [halfBytes, little, List.range_succ, ← ofInt_div_byte 16 0 x (by omega), ← ofInt_div_byte 16 1 x (by omega)]

/-- A signed 16-bit field. -/
theorem s16_little (x : Int) : s16 x = little 2 x := halfBytes_ofInt x

/-- A 16-bit field of bits. -/
theorem halfBytes_little (v : Half) : halfBytes v = little 2 v.toNat := by
  rw [← halfBytes_ofInt, BitVec.ofInt_natCast, BitVec.ofNat_toNat, BitVec.setWidth_eq]

/-- An unsigned 16-bit field. -/
theorem u16_little (n : Nat) : u16 n = little 2 n := by rw [← halfBytes_ofInt, BitVec.ofInt_natCast]; rfl

/-- A field within a field. -/
theorem extract_extract {w : Nat} (v : BitVec w) (a n b m : Nat) (h : b + m ≤ n) :
    (v.extractLsb' a n).extractLsb' b m = v.extractLsb' (a + b) m := by
  ext i hi
  simp [show b + i < n by omega, Nat.add_assoc]

/-- A signed or unsigned 32-bit field. -/
theorem wordBytes_ofInt (x : Int) : wordBytes (BitVec.ofInt 32 x) = little 4 x := by
  have h (i : Nat) (hi : 8 * i + 8 ≤ 32) := ofInt_div_byte 32 i x hi
  have e : little 4 x = [BitVec.ofInt 8 (x / 256 ^ 0), BitVec.ofInt 8 (x / 256 ^ 1), BitVec.ofInt 8 (x / 256 ^ 2),
    BitVec.ofInt 8 (x / 256 ^ 3)] := rfl
  rw [e, h 0 (by omega), h 1 (by omega), h 2 (by omega), h 3 (by omega)]
  simp [wordBytes, halfBytes, extract_extract, -BitVec.extractLsb'_eq_self]

/-- A 32-bit field of bits. -/
theorem wordBytes_little (v : Word) : wordBytes v = little 4 v.toNat := by
  rw [← wordBytes_ofInt, BitVec.ofInt_natCast, BitVec.ofNat_toNat, BitVec.setWidth_eq]

/-- A 64-bit field of bits. -/
theorem maskBytes_little (v : ChanMask) : maskBytes v = little 8 v.toNat := by
  have h (i : Nat) (hi : 8 * i + 8 ≤ 64) := ofInt_div_byte 64 i v.toNat hi
  have e (x : Int) : little 8 x = [BitVec.ofInt 8 (x / 256 ^ 0), BitVec.ofInt 8 (x / 256 ^ 1), BitVec.ofInt 8 (x / 256 ^ 2),
    BitVec.ofInt 8 (x / 256 ^ 3), BitVec.ofInt 8 (x / 256 ^ 4), BitVec.ofInt 8 (x / 256 ^ 5), BitVec.ofInt 8 (x / 256 ^ 6),
    BitVec.ofInt 8 (x / 256 ^ 7)] := rfl
  rw [e, h 0 (by omega), h 1 (by omega), h 2 (by omega), h 3 (by omega), h 4 (by omega), h 5 (by omega), h 6 (by omega),
    h 7 (by omega), BitVec.ofInt_natCast, BitVec.ofNat_toNat, BitVec.setWidth_eq]
  simp [maskBytes, wordBytes, halfBytes, extract_extract]

/-- A byte field. -/
theorem codeByte_little (x : Int) : [codeByte x] = little 1 x := by simp [codeByte, little, List.range_succ]

/-- An unsigned byte field. -/
theorem u8_little (n : Nat) : [u8 n] = little 1 n := by simp [u8, little, List.range_succ]

/-- A count in a byte is its code. -/
theorem u8_codeByte (n : Nat) : u8 n = codeByte n := by simp [u8, codeByte]

/-- A flag. -/
theorem flagByte_flags (b : Bool) : flagByte b = flags [b] := by cases b <;> rfl

/-- A byte of eight flags. -/
theorem bitsByte_flags (b0 b1 b2 b3 b4 b5 b6 b7 : Bool) :
    bitsByte b0 b1 b2 b3 b4 b5 b6 b7 = flags [b0, b1, b2, b3, b4, b5, b6, b7] := by
  revert b0 b1 b2 b3 b4 b5 b6 b7; decide

/-- Flags that are off above the last one named change nothing. -/
theorem flags_append_false (bs : List Bool) (n : Nat) : flags (bs ++ List.replicate n false) = flags bs := by
  have h : (List.replicate n false).foldr (fun b n => b.toNat + 2 * n) 0 = 0 := by
    induction n with
    | zero => rfl
    | succ n ih => simp [List.replicate_succ, ih]
  rw [flags, flags, List.foldr_append, h]

end Sys2Proof.Machine
end

