-- ==== Sys2Proof/Laws/Ports.lean ====
section
/-! SUPPORT. The verdict of a port's ended block, the counts it makes, and the link state that they cause, field by field. -/

namespace Sys2Proof.Machine

variable (port : Port) (p : PortRec) (v : Verdict)

/-- The verdict with no word. -/
theorem PortRec.verdict_none (h : p.word = none) : p.verdict = .missing := by
  unfold PortRec.verdict; rw [h]

/-- The verdict of a word: CHECK by its check byte, then GOOD or SLIP by its sequence number. -/
theorem PortRec.verdict_some {w : ReturnWord} (h : p.word = some w) :
    p.verdict = if wordChecks w = false then .check
      else if ∀ q, p.lastSeq = some q → w.seq = q + 1#8 then .good else .slip := by
  unfold PortRec.verdict
  rw [h]
  dsimp only
  split
  · rfl
  · cases p.lastSeq <;> simp

/-- A word recorded changes the last sequence number and the latest word alone. -/
theorem PortRec.recordWord_frame :
    p.recordWord v = { p with lastSeq := (p.recordWord v).lastSeq, latest := (p.recordWord v).latest } := by
  unfold PortRec.recordWord
  split
  · rfl
  · split <;> rfl

/-- A valid word is recorded. -/
theorem PortRec.recordWord_valid {w : ReturnWord} (h : p.word = some w) (hv : v.valid = true) :
    (p.recordWord v).lastSeq = some w.seq ∧ (p.recordWord v).latest = some { id := w.id, third := w.third } := by
  unfold PortRec.recordWord; rw [h]; simp [hv]

/-- Without a valid word nothing is recorded. -/
theorem PortRec.recordWord_invalid (hv : v.valid = false) : p.recordWord v = p := by
  unfold PortRec.recordWord
  split
  · rfl
  · simp [hv]

/-- The counts after a verdict. -/
theorem PortRec.updateCounts_frame :
    p.updateCounts v = { p with
      validRun := if v.valid then min 16 (p.validRun + 1) else 0
      invalidRun := if v.valid then 0 else min 8 (p.invalidRun + 1)
      window := (p.updateCounts v).window
      cleanRun := if p.state = .degraded ∧ v = .good then min 64 (p.cleanRun + 1) else 0 } := rfl

/-- The error window holds at most 64 blocks, the newest last. -/
theorem PortRec.updateCounts_window (h : p.window.length ≤ 64) :
    (p.updateCounts v).window.length ≤ 64 ∧ (p.updateCounts v).window.getLast? = some v.error := by
  unfold PortRec.updateCounts
  dsimp only
  split
  · next hl =>
    simp only [List.length_append, List.length_singleton] at hl
    have h0 : p.window ≠ [] := by rintro h0; simp [h0] at hl
    obtain ⟨b, rest, hb⟩ := List.exists_cons_of_ne_nil h0
    rw [hb] at h ⊢
    simp only [List.length_cons] at h
    simp; omega
  · next hl =>
    simp only [List.length_append, List.length_singleton] at hl ⊢
    exact ⟨by omega, by simp⟩

/-- The transitions, by the link state. -/
theorem PortRec.transition_seeking (h : p.state = .seeking ∨ p.state = .down) :
    p.transition = if 16 ≤ p.validRun
      then ({ p with state := .up, validRun := 0, invalidRun := 0, cleanRun := 0, window := [] }, some .validRun)
      else (p, none) := by
  unfold PortRec.transition; rcases h with h | h <;> rw [h]

theorem PortRec.transition_up (h : p.state = .up) :
    p.transition = if 4 ≤ p.windowCount then ({ p with state := .degraded, cleanRun := 0 }, some .errorWindow)
      else (p, none) := by
  unfold PortRec.transition; rw [h]

theorem PortRec.transition_degraded (h : p.state = .degraded) :
    p.transition = if 8 ≤ p.invalidRun
      then ({ p with state := .down, validRun := 0, cleanRun := 0 }, some .lost)
      else if 64 ≤ p.cleanRun then ({ p with state := .up, cleanRun := 0 }, some .cleanRun) else (p, none) := by
  unfold PortRec.transition; rw [h]

/-- A transition leaves the words a port has recorded, and whether it judges. -/
theorem PortRec.transition_words :
    p.transition.1.lastSeq = p.lastSeq ∧ p.transition.1.latest = p.latest ∧ p.transition.1.judging = p.judging ∧
      p.transition.1.timing = p.timing := by
  unfold PortRec.transition; repeat' (first | exact ⟨rfl, rfl, rfl, rfl⟩ | split)

/-- A verdict hands over at most one LINK event. -/
theorem verdictEvent_length (former counted new : PortRec) (cause : Option LinkCause) :
    (verdictEvent port former counted new v cause).length ≤ 1 := by
  unfold verdictEvent
  split
  · simp
  · split <;> simp

/-- What a judging port's boundary makes of its record. -/
theorem PortRec.boundary_judging (hs : p.state ≠ .off) (hj : p.judging = true) : p.boundary port = p.judge port := by
  simp [PortRec.boundary, hs, hj]

end Sys2Proof.Machine
end

