-- ==== Sys2Proof/Laws/Still.lean ====
section
/-! SUPPORT. Which operations leave the frame counter and the waiting commands alone: all of them but a sample period's end
and POWER_ON_RESET. -/

namespace Sys2Proof.Machine

/-- What every step of a fold keeps, the fold keeps. -/
theorem foldl_keeps {α β γ : Type} {f : β → α → β} {g : β → γ} (h : ∀ b a, g (f b a) = g b) (l : List α) (b : β) :
    g (l.foldl f b) = g b := by
  induction l generalizing b with
  | nil => rfl
  | cons a l ih => exact (ih (f b a)).trans (h b a)

/-- The waiting commands and the frame counter. -/
def State.still (s : State) : List Instr × Word := (s.pending, s.frame)

theorem State.still_iff {s t : State} : t.still = s.still ↔ t.pending = s.pending ∧ t.frame = s.frame := by
  simp [State.still]

section shared
variable (s : State)

@[simp] theorem State.setChan_still (c : ChanId) (x : Chan) : (s.setChan c x).still = s.still := rfl
@[simp] theorem State.setXp_still (c : ChanId) (f : Feed) (x : Xp) : (s.setXp c f x).still = s.still := rfl
@[simp] theorem State.setBoard_still (b : BoardId) (x : Board) : (s.setBoard b x).still = s.still := rfl
@[simp] theorem State.setGuard_still (c : ChanId) (x : Guard) : (s.setGuard c x).still = s.still := rfl
@[simp] theorem State.setPort_still (p : Port) (x : PortRec) : (s.setPort p x).still = s.still := rfl
@[simp] theorem State.setEx_still (x : Exchange) : (s.setEx x).still = s.still := rfl
@[simp] theorem State.raise_still (e : Event) : (s.raise e).still = s.still := rfl
@[simp] theorem State.raiseAll_still (es : List Event) : (s.raiseAll es).still = s.still := rfl
@[simp] theorem State.putChan_still (c : ChanId) (r : Chan × List Event) : (s.putChan c r).still = s.still := rfl
@[simp] theorem State.finish_still (t : TakeHead) (r : Result) (y : Option (List Byte)) :
    (s.finish t r y).still = s.still := rfl
@[simp] theorem State.hold_still (t : TakeHead) (r : Result) (y : XpReply) : (s.hold t r y).still = s.still := rfl

end shared

/-! ### The line and the arbiter -/

section line
variable (s : State)

@[simp] theorem State.startFor_still (r : ReqId) : (s.startFor r).still = s.still := by
  unfold State.startFor; split <;> rfl

@[simp] theorem State.arbitrate_still (first : Option ReqId) : (s.arbitrate first).still = s.still := by
  unfold State.arbitrate
  split
  · rfl
  · split
    · rfl
    · exact s.startFor_still _

@[simp] theorem State.freeLine_still : s.freeLine.still = s.still := rfl

@[simp] theorem State.stepSucceeds_still (c : ChanId) (sent : SentState) (d : List Byte) :
    (s.stepSucceeds c sent d).still = s.still := rfl

@[simp] theorem State.readbackChans_still (b : BoardId) (d : List Byte) : (s.readbackChans b d).still = s.still :=
  foldl_keeps (fun _ _ => by simp) _ _

@[simp] theorem State.readbackSucceeds_still (b : BoardId) (d : List Byte) : (s.readbackSucceeds b d).still = s.still := by
  unfold State.readbackSucceeds; dsimp only; split <;> simp

@[simp] theorem State.boardOffline_still (b : BoardId) (e : LineError) : (s.boardOffline b e).still = s.still := by
  unfold State.boardOffline
  simp only [State.raise_still]
  exact foldl_keeps (fun _ _ => by simp) _ _

@[simp] theorem State.stepFails_still (c : ChanId) (e : LineError) : (s.stepFails c e).still = s.still := rfl

@[simp] theorem State.readbackFails_still (b : BoardId) : (s.readbackFails b).still = s.still := rfl

@[simp] theorem State.txFails_still (t : InFlight) (e : LineError) : (s.txFails t e).still = s.still := by
  unfold State.txFails; cases t.kind <;> dsimp only <;> split <;> simp

@[simp] theorem State.txSucceeds_still (t : InFlight) : (s.txSucceeds t).still = s.still := by
  unfold State.txSucceeds; cases t.kind <;> simp

@[simp] theorem State.receiveChar_still (ch : LineChar) : (s.receiveChar ch).still = s.still := by
  unfold State.receiveChar State.txComplete
  split
  · rfl
  · dsimp only
    split
    · split <;> simp
    · rfl

@[simp] theorem State.windowExpires_still : s.windowExpires.still = s.still := by
  unfold State.windowExpires
  split
  · rfl
  · split <;> simp

@[simp] theorem State.retryReadback_still (b : BoardId) : (s.retryReadback b).still = s.still := by
  unfold State.retryReadback; split <;> simp

end line

/-! ### Boundaries -/

section boundary
variable (s : State)

@[simp] theorem State.guardChan_still (c : ChanId) (code : Nat) : (s.guardChan c code).still = s.still := by
  unfold State.guardChan
  split
  · dsimp only
    split
    · split
      · rfl
      · unfold State.guardFloor; dsimp only; split <;> rfl
    · rfl
  · rfl

@[simp] theorem State.meterChan_still (c : ChanId) : (s.meterChan c).still = s.still :=
  s.guardChan_still c (s.blocks[c]).code

@[simp] theorem State.meterBoundary_still : s.meterBoundary.still = s.still :=
  foldl_keeps (g := State.still) (fun t c => t.meterChan_still c) _ _

@[simp] theorem State.sceneBoundary_still : s.sceneBoundary.still = s.still := by
  unfold State.sceneBoundary
  split
  · rfl
  · rw [State.raiseAll_still]
    simp only [State.exchangeBanks, State.still]

@[simp] theorem State.portsBoundary_still : s.portsBoundary.still = s.still :=
  foldl_keeps (g := State.still) (fun t p => by simp [State.portBoundary]) _ _

@[simp] theorem State.putClock_still (m : ClockMove) (tag : Option Half) : (s.putClock m tag).still = s.still := by
  unfold State.putClock; split <;> rfl

@[simp] theorem State.clockBoundary_still (ph : PhaseInput) : (s.clockBoundary ph).still = s.still :=
  s.putClock_still _ none

@[simp] theorem State.acquisitionGivesUp_still : s.acquisitionGivesUp.still = s.still := by
  unfold State.acquisitionGivesUp; split <;> simp

@[simp] theorem State.clockRetries_still : s.clockRetries.still = s.still := by
  unfold State.clockRetries; split <;> simp

@[simp] theorem State.closeInterval_still : s.closeInterval.still = s.still := by
  unfold State.closeInterval
  split
  · simp only [State.still]
  · rfl

@[simp] theorem State.clockSettled_still : s.clockSettled.still = s.still := by simp [State.clockSettled]

@[simp] theorem State.exchangeSettled_still : s.exchangeSettled.still = s.still := by simp [State.exchangeSettled]

@[simp] theorem State.unitWork_still (u : BoundaryUnit) (ph : PhaseInput) : (s.unitWork u ph).still = s.still := by
  cases u
  case meterGuard => exact s.meterBoundary_still
  case preampLine => rfl
  case sceneStore => exact s.sceneBoundary_still
  case feedPorts => exact s.portsBoundary_still
  case exchange => rfl
  case clock => exact s.clockBoundary_still ph

@[simp] theorem State.unitBoundary_still (ph : PhaseInput) (u : BoundaryUnit) :
    (State.unitBoundary ph s u).still = s.still := by
  unfold State.unitBoundary
  split
  · rw [State.unitWork_still]; rfl
  · rfl

@[simp] theorem State.boundaryWork_still (us : List BoundaryUnit) (ph : PhaseInput) :
    (s.boundaryWork us ph).still = s.still :=
  foldl_keeps (g := State.still) (fun t u => t.unitBoundary_still ph u) _ _

@[simp] theorem State.chanDue_still (c : ChanId) : (s.chanDue c).still = s.still := by
  unfold State.chanDue State.applyPending State.finishRamp State.forceStep
  repeat' (first | rfl | split)

@[simp] theorem State.catchUp_still : s.catchUp.still = s.still := by
  unfold State.catchUp
  split
  · rfl
  · rw [State.arbitrate_still, State.windowExpires_still, foldl_keeps (g := State.still) (fun t c => t.chanDue_still c)]
    rfl

@[simp] theorem State.boundaryRest_still : s.boundaryRest.still = s.still := by
  unfold State.boundaryRest
  split
  · rfl
  · rw [State.exchangeSettled_still, foldl_keeps (g := State.still) (fun t b => t.retryReadback_still b)]
    simp

end boundary

/-! ### Samples -/

@[simp] theorem State.judgeLane_still (s : State) (g : LaneId) (f : LaneInput) : (s.judgeLane g f).still = s.still := by
  unfold State.judgeLane
  dsimp only
  split
  · rfl
  · rw [State.raiseAll_still]
    simp only [State.still]

@[simp] theorem State.computeSample_still (s : State) : s.computeSample.still = s.still := by
  unfold State.computeSample
  rw [State.raiseAll_still]
  simp only [State.still]

@[simp] theorem State.missingFrames_still (s : State) : s.missingFrames.still = s.still :=
  foldl_keeps (g := State.still) (fun t g => t.judgeLane_still g .missing) _ _

@[simp] theorem State.watchAll_still (s : State) : s.watchAll.still = s.still := by
  simp only [State.watchAll, State.still]

@[simp] theorem State.sendFrames_still (s : State) : s.sendFrames.still = s.still := by
  simp only [State.sendFrames, State.still]

@[simp] theorem State.takeSample_still (s : State) : s.takeSample.still = s.still := by
  rw [State.takeSample, State.sendFrames_still, State.watchAll_still, State.computeSample_still, State.missingFrames_still]

/-- The end of a period keeps the waiting commands and raises the frame counter by one. -/
theorem State.endPeriod_still (s : State) : s.endPeriod.still = (s.pending, s.frame + 1#32) := by
  simp only [State.endPeriod, State.still]

/-- A sample period keeps the waiting commands and raises the frame counter by one. -/
theorem execSamplePeriod_still (s : State) :
    s.catchUp.takeSample.boundaryRest.endPeriod.still = (s.pending, s.frame + 1#32) := by
  obtain ⟨h1, h2⟩ := State.still_iff.1
    ((s.catchUp.takeSample.boundaryRest_still.trans s.catchUp.takeSample_still).trans s.catchUp_still)
  rw [State.endPeriod_still, h1, h2]

/-! ### Changes of owner and requests -/

section requests
variable (s : State)

@[simp] theorem State.changeOwner_still (c : ChanId) (o : Option Feed) (k : OwnCause) (t : Half) :
    (s.changeOwner c o k t).still = s.still := by
  simp [State.changeOwner]

@[simp] theorem State.enterTrack_still (c : ChanId) (f : Feed) : (s.enterTrack c f).still = s.still := rfl
@[simp] theorem State.leaveTrack_still (c : ChanId) (f : Feed) (m : XpMode) : (s.leaveTrack c f m).still = s.still := rfl
@[simp] theorem State.claimFree_still (c : ChanId) (f : Feed) (t : Half) : (s.claimFree c f t).still = s.still := by
  simp [State.claimFree]
@[simp] theorem State.takeOver_still (c : ChanId) (e f : Feed) (t : Half) : (s.takeOver c e f t).still = s.still := by
  simp [State.takeOver]
@[simp] theorem State.giveUp_still (c : ChanId) (f : Feed) (k : OwnCause) (t : Half) :
    (s.giveUp c f k t).still = s.still := by simp [State.giveUp]

@[simp] theorem State.portDisable_still (t : Half) (p : Port) : (State.portDisable t s p).still = s.still := by
  unfold State.portDisable; dsimp only; split <;> simp

@[simp] theorem State.portEnable_still (t : Half) (p : Port) : (State.portEnable t s p).still = s.still := rfl

@[simp] theorem State.disableFeed_still (f : Feed) (t : Half) : (s.disableFeed f t).still = s.still := by
  unfold State.disableFeed
  rw [foldl_keeps (g := State.still) (fun u c => by simp), foldl_keeps (g := State.still) (fun u p => by simp)]
  rfl

@[simp] theorem State.enableFeed_still (f : Feed) (t : Half) : (s.enableFeed f t).still = s.still := by
  unfold State.enableFeed
  rw [foldl_keeps (g := State.still) (fun u p => by simp)]
  rfl

theorem State.withChan_still (t : TakeHead) (k : ChanId → Source → State) (h : ∀ c src, (k c src).still = s.still) :
    (s.withChan t k).still = s.still := by
  unfold State.withChan; split <;> simp [h]

theorem State.withXp_still (t : TakeHead) (k : ChanId → Feed → State) (h : ∀ c f, (k c f).still = s.still) :
    (s.withXp t k).still = s.still := by
  unfold State.withXp; repeat' (first | rfl | exact h _ _ | split)

theorem State.withFeed_still (t : TakeHead) (k : Feed → State) (h : ∀ f, (k f).still = s.still) :
    (s.withFeed t k).still = s.still := by
  unfold State.withFeed; repeat' (first | rfl | exact h _ | split)

theorem State.withSource_still (t : TakeHead) (k : State) (h : k.still = s.still) : (s.withSource t k).still = s.still := by
  unfold State.withSource; split <;> simp [h]

@[simp] theorem State.holdOrFinish_still (t : TakeHead) (b : Bool) (r : Result) (y : XpReply) :
    (s.holdOrFinish t b r y).still = s.still := by
  unfold State.holdOrFinish; split <;> rfl

@[simp] theorem State.serveSetAnalog_still (t : TakeHead) (v : Half) : (s.serveSetAnalog t v).still = s.still :=
  s.withChan_still _ _ fun c src => by dsimp only; split <;> [simp; (split <;> simp [State.serveAsTrim])]

@[simp] theorem State.serveSetPad_still (t : TakeHead) (v : Byte) : (s.serveSetPad t v).still = s.still :=
  s.withChan_still _ _ fun c src => by dsimp only; repeat' (first | (solve | simp) | split)

@[simp] theorem State.serveSetPhantom_still (t : TakeHead) (v : Byte) : (s.serveSetPhantom t v).still = s.still :=
  s.withChan_still _ _ fun c src => by dsimp only; repeat' (first | (solve | simp) | split)

@[simp] theorem State.serveReadChannel_still (t : TakeHead) : (s.serveReadChannel t).still = s.still :=
  s.withChan_still _ _ fun _ _ => rfl

@[simp] theorem State.serveResync_still (t : TakeHead) : (s.serveResync t).still = s.still :=
  s.withChan_still _ _ fun _ _ => by simp

@[simp] theorem State.serveSetGuard_still (t : TakeHead) (e : Byte) (a b c d : Half) :
    (s.serveSetGuard t e a b c d).still = s.still :=
  s.withChan_still _ _ fun c src => by dsimp only; repeat' (first | (solve | simp) | split)

@[simp] theorem State.serveSetTrim_still (t : TakeHead) (v : Half) : (s.serveSetTrim t v).still = s.still :=
  s.withXp_still _ _ fun c f => by simp

@[simp] theorem State.serveSetMode_still (t : TakeHead) (v : Byte) : (s.serveSetMode t v).still = s.still :=
  s.withXp_still _ _ fun c f => by dsimp only; repeat' (first | (solve | simp) | split)

@[simp] theorem State.serveSetFlags_still (t : TakeHead) (v w : Byte) : (s.serveSetFlags t v w).still = s.still :=
  s.withXp_still _ _ fun c f => by dsimp only; split <;> simp

@[simp] theorem State.serveClaim_still (t : TakeHead) : (s.serveClaim t).still = s.still :=
  s.withXp_still _ _ fun c f => by dsimp only; repeat' (first | (solve | simp) | split)

@[simp] theorem State.serveRelease_still (t : TakeHead) : (s.serveRelease t).still = s.still :=
  s.withXp_still _ _ fun c f => by dsimp only; repeat' (first | (solve | simp) | split)

@[simp] theorem State.serveSetFeed_still (t : TakeHead) (v w : Byte) : (s.serveSetFeed t v w).still = s.still :=
  s.withFeed_still _ _ fun f => by
    dsimp only
    split
    · rfl
    · simp only [State.finish_still]
      split
      · exact State.disableFeed_still _ _ _
      · split
        · exact State.enableFeed_still _ _ _
        · rfl

@[simp] theorem State.serveLoadSlotmap_still (t : TakeHead) (v : Word) : (s.serveLoadSlotmap t v).still = s.still :=
  s.withFeed_still _ _ fun f => by dsimp only; repeat' (first | (solve | simp) | (solve | (rw [State.finish_still]; simp only [State.still])) | split)

@[simp] theorem State.serveLoadShadow_still (t : TakeHead) (v : Word) (a b : Byte) :
    (s.serveLoadShadow t v a b).still = s.still :=
  s.withSource_still _ _ (by dsimp only; repeat' (first | (solve | simp) | (solve | (rw [State.finish_still]; simp only [State.still])) | split))

@[simp] theorem State.serveSwap_still (t : TakeHead) (v : ChanMask) : (s.serveSwap t v).still = s.still :=
  s.withSource_still _ _ (by repeat' (first | (solve | simp) | (solve | (rw [State.finish_still]; simp only [State.still])) | split))

@[simp] theorem State.selectClock_still (k : ClockSource) (t : Half) : (s.selectClock k t).still = s.still := by
  unfold State.selectClock
  dsimp only
  split
  · rfl
  · exact s.putClock_still _ _

@[simp] theorem State.serveSetClock_still (t : TakeHead) (v : Byte) : (s.serveSetClock t v).still = s.still :=
  s.withSource_still _ _ (by split <;> simp)

@[simp] theorem State.serveSetExchange_still (t : TakeHead) (e : Byte) (a b c : Half) (d : Byte) :
    (s.serveSetExchange t e a b c d).still = s.still :=
  s.withSource_still _ _ (by
    split
    · rfl
    · exact (State.finish_still _ _ _ _).trans s.exchangeSettled_still)

@[simp] theorem State.serveKind_still (t : TakeHead) : (s.serveKind t).still = s.still := by
  unfold State.serveKind; dsimp only; split <;> simp

@[simp] theorem State.walkStep_still : s.walkStep.still = s.still := by
  unfold State.walkStep; dsimp only; repeat' (first | (solve | simp) | split)

/-- A request keeps what its take keeps. -/
theorem State.request_still (h : ReqHead) (k : Byte) (args : List Byte) (serve : State → TakeHead → State)
    (hs : ∀ u t, (serve u t).still = u.still) {t : State} (ht : s.request h k args serve = .next t) : t.still = s.still := by
  simp only [State.request, Host.Outcome.next.injEq] at ht
  subst ht
  repeat' (first | (solve | simp [hs]) | split)

end requests

end Sys2Proof.Machine
end

