-- ==== Sys2Proof/Laws/Sample.lean ====
section
/-! SUPPORT. The parts of a sample period: where nothing is due before the sample, where every frame has been judged, and what
the boundary work after the sample leaves alone. -/

namespace Sys2Proof.Machine

variable (s : State)

/-- Nothing is due before the sample. -/
theorem State.catchUp_of_calm (h : s.calmBefore = true) : s.catchUp = s := by
  rw [State.catchUp, if_pos h]

/-- Nothing of a boundary is due. -/
theorem State.boundaryRest_of_calm (h : s.calmAfter = true) : s.boundaryRest = s := by
  rw [State.boundaryRest, if_pos h]

/-- Every lane's frame has been judged. -/
theorem State.missingFrames_of_judged (h : ∀ g : LaneId, s.lanes[g].judged = true) : s.missingFrames = s := by
  have step (g : LaneId) : s.judgeLane g .missing = s := by
    unfold State.judgeLane
    simp only [h g, if_true]
  have all (l : List LaneId) : l.foldl (fun t g => t.judgeLane g .missing) s = s := by
    induction l with
    | nil => rfl
    | cons g l ih => rw [List.foldl_cons, step, ih]
  exact all _

/-- What a sample leaves behind, beside the channels and crosspoints: the outputs and frames, and what they were made of. -/
def State.played (s : State) :
    Vector (PerFeed Int) 64 × PerPort (Option Frame) × Vector SampleView 64 × Vector Int 64 × Vector Lane 8 ×
      PerFeed (Vector (Option ChanId) 64) :=
  (s.outputs, s.portOut, s.views, s.samples, s.lanes, s.slots)

@[simp] theorem State.setEx_played (x : Exchange) : (s.setEx x).played = s.played := rfl
@[simp] theorem State.setBoard_played (b : BoardId) (x : Board) : (s.setBoard b x).played = s.played := rfl
@[simp] theorem State.setGuard_played (c : ChanId) (g : Guard) : (s.setGuard c g).played = s.played := rfl
@[simp] theorem State.setPort_played (p : Port) (x : PortRec) : (s.setPort p x).played = s.played := rfl
@[simp] theorem State.raise_played (e : Event) : (s.raise e).played = s.played := rfl
@[simp] theorem State.raiseAll_played (es : List Event) : (s.raiseAll es).played = s.played := rfl
@[simp] theorem State.putChan_played (c : ChanId) (r : Chan × List Event) : (s.putChan c r).played = s.played := rfl

theorem State.guardStep_played (c : ChanId) (code : Nat) : (s.guardStep c code).played = s.played := rfl

theorem State.guardFloor_played (c : ChanId) (code : Nat) : (s.guardFloor c code).played = s.played := by
  unfold State.guardFloor; dsimp only; split <;> simp

theorem State.guardChan_played (c : ChanId) (code : Nat) : (s.guardChan c code).played = s.played := by
  unfold State.guardChan
  split
  · dsimp only
    split
    · split
      · rw [State.guardStep_played, State.setGuard_played]
      · rw [State.guardFloor_played, State.setGuard_played]
    · exact s.setGuard_played _ _
  · rfl

theorem State.meterChan_played (c : ChanId) : (s.meterChan c).played = s.played := s.guardChan_played c (s.blocks[c]).code

theorem State.portBoundary_played (p : Port) : (State.portBoundary s p).played = s.played := by
  simp [State.portBoundary]

theorem State.putClock_played (m : ClockMove) (tag : Option Half) : (s.putClock m tag).played = s.played := by
  unfold State.putClock; split <;> rfl

theorem State.unitWork_played (u : BoundaryUnit) (ph : PhaseInput) : (s.unitWork u ph).played = s.played := by
  cases u
  case meterGuard => exact foldl_keeps (g := State.played) State.meterChan_played _ _
  case preampLine => rfl
  case sceneStore =>
    unfold State.unitWork State.sceneBoundary
    dsimp only
    split
    · rfl
    · rw [State.raiseAll_played]
      simp only [State.exchangeBanks, State.played]
  case feedPorts => exact foldl_keeps (g := State.played) State.portBoundary_played _ _
  case exchange => rfl
  case clock => exact s.putClock_played _ none

theorem State.unitBoundary_played (ph : PhaseInput) (u : BoundaryUnit) : (State.unitBoundary ph s u).played = s.played := by
  unfold State.unitBoundary
  split
  · rw [State.unitWork_played]; rfl
  · rfl

/-- The boundary work leaves what the sample left. -/
theorem State.boundaryWork_played (us : List BoundaryUnit) (ph : PhaseInput) : (s.boundaryWork us ph).played = s.played :=
  foldl_keeps (g := State.played) (fun t u => t.unitBoundary_played ph u) _ _

/-- What is left to SAMPLE_PERIOD of a boundary leaves what the sample left. -/
theorem State.boundaryRest_played : s.boundaryRest.played = s.played := by
  unfold State.boundaryRest
  split
  · rfl
  · have close (t : State) : t.closeInterval.played = t.played := by
      unfold State.closeInterval
      split
      · simp only [State.played]
      · rfl
    have retry (t : State) (b : BoardId) : (t.retryReadback b).played = t.played := by
      unfold State.retryReadback; split <;> rfl
    have clock (t : State) : t.clockSettled.played = t.played := by
      unfold State.clockSettled State.clockRetries State.acquisitionGivesUp
      split <;> split <;> simp [State.putClock_played]
    simp only [State.exchangeSettled, State.setEx_played]
    rw [close, foldl_keeps (g := State.played) retry, clock, State.boundaryWork_played]

end Sys2Proof.Machine
end

