-- ==== Sys2Proof/Laws/Store.lean ====
section
/-! SUPPORT. The Exchange Unit's operations keep its laws: the bounds of the queue and the store (R185, R187), and where the
cursor, the record in hand and the memory's bytes lie (R168). -/

namespace Sys2Proof.Machine

/-- The two laws of the Exchange Unit together. -/
def Exchange.Law (x : Exchange) : Prop := x.StoreLaw ∧ x.WalkLaw

theorem Exchange.count_pos (x : Exchange) : 0 < x.count := by
  unfold Exchange.count blockCount; positivity

/-! ### The bytes the list holds -/

theorem writeByte_anchor {m : List Host.Cell} {a : Nat} (v : Byte) (ha : Config.anchor ≤ a)
    (h : ∀ x ∈ m, Config.anchor ≤ x.1) : ∀ x ∈ writeByte m a v, Config.anchor ≤ x.1 := by
  intro x hx
  rcases writeByte_keys m a v hx with hx | hx
  · omega
  · exact h x hx

theorem writeBytes_anchor (vs : List Byte) {m : List Host.Cell} {a : Nat} (ha : Config.anchor ≤ a)
    (h : ∀ x ∈ m, Config.anchor ≤ x.1) : ∀ x ∈ writeBytes m a vs, Config.anchor ≤ x.1 := by
  induction vs generalizing m a with
  | nil => exact h
  | cons v vs ih => exact ih (by omega) (writeByte_anchor v ha h)

theorem controllerWrite_anchor {m : List Host.Cell} (a : Nat) (v : Byte) (h : ∀ x ∈ m, Config.anchor ≤ x.1) :
    ∀ x ∈ controllerWrite m a v, Config.anchor ≤ x.1 := by
  unfold controllerWrite
  split
  · next ha => exact writeByte_anchor v ha.1 h
  · exact h

theorem controllerWrites_anchor (vs : List Byte) {m : List Host.Cell} (a : Nat) (h : ∀ x ∈ m, Config.anchor ≤ x.1) :
    ∀ x ∈ controllerWrites m a vs, Config.anchor ≤ x.1 := by
  induction vs generalizing m a with
  | nil => exact h
  | cons v vs ih => exact ih (a + 1) (controllerWrite_anchor a v h)

theorem controllerCells_anchor (ws : List Host.Cell) {m : List Host.Cell} (h : ∀ x ∈ m, Config.anchor ≤ x.1) :
    ∀ x ∈ controllerCells m ws, Config.anchor ≤ x.1 := by
  induction ws generalizing m with
  | nil => exact h
  | cons w ws ih => exact ih (controllerWrite_anchor w.1 w.2 h)

/-! ### Each operation keeps the laws -/

section laws
variable {x : Exchange}

theorem Exchange.Law.join (h : x.Law) (q : QueuedEvent) : (x.join q).Law := by
  obtain ⟨⟨h1, h2, h3, h4, h5⟩, hw⟩ := h
  have hq := x.join_queue_length q h1
  rw [Exchange.join_frame]
  exact ⟨⟨hq, h2, h3, h4, h5⟩, hw⟩

theorem Exchange.Law.joinAll (stamp : Word) (es : List Event) (h : x.Law) : (x.joinAll stamp es).Law := by
  induction es generalizing x with
  | nil => exact h
  | cons e es ih => exact ih (h.join _)

theorem Exchange.Law.store (h : x.Law) (hf : x.filled < x.count) (kind : Byte) (stamp : Word) (body : List Byte) :
    (x.store kind stamp body).Law := by
  obtain ⟨⟨h1, h2, h3, h4, h5⟩, w1, w2, w3, w4⟩ := h
  exact ⟨⟨h1, hf, h3, h4, h5⟩, w1, w2, writeBytes_wf _ _ w3,
    writeBytes_anchor _ (by simp [blockOffset, Config.anchor, Config.windowEnd]; omega) w4⟩

/-- The laws do not speak of the losses or of the held snapshot. -/
theorem Exchange.Law.losses (n : Nat) (a b : Option Word) (h : x.Law) :
    ({ x with lost := n, firstLost := a, lastLost := b } : Exchange).Law := h

theorem Exchange.Law.dropHeld (m : Option Snapshot) (h : x.Law) : ({ x with held := m } : Exchange).Law := h

theorem Exchange.Law.writeNext (h : x.Law) : x.writeNext.Law := by
  unfold Exchange.writeNext
  split
  · next hm =>
    have hf : x.filled < x.count := by simp [Exchange.mayWrite] at hm; exact hm.2
    have hs := fun k s b => h.store hf k s b
    split
    · exact (hs _ _ _).losses 0 none none
    · split
      · next q rest hq =>
        obtain ⟨⟨h1, h2⟩, hw⟩ := hs q.event.kind q.stamp q.event.body
        refine ⟨⟨?_, h2⟩, hw⟩
        have := h.1.1
        simp only [hq, List.length_cons] at this
        dsimp only
        omega
      · split
        · exact (hs _ _ _).dropHeld none
        · exact h
  · exact h

theorem Exchange.Law.giveBack (n : Nat) (h : x.Law) : (x.giveBack n).Law := by
  obtain ⟨⟨h1, h2, h3, h4, h5⟩, hw⟩ := h
  unfold Exchange.giveBack
  split
  · exact ⟨⟨h1, by dsimp only; change x.filled - n ≤ x.count; omega, Nat.mod_lt _ x.count_pos, h4, h5⟩, hw⟩
  · exact ⟨⟨h1, Nat.zero_le _, Nat.mod_lt _ x.count_pos, h4, h5⟩, hw⟩

theorem Exchange.Law.takeSnapshot (m : Snapshot) (h : x.Law) : (x.takeSnapshot m).Law := by
  unfold Exchange.takeSnapshot
  split
  · exact h
  · split
    · next hc =>
      have hf : x.filled < x.count := by have := hc.2.2; simp [Exchange.mayWrite] at this; exact this.2
      exact h.store hf _ _ _
    · exact h

theorem Exchange.Law.trigger (h : x.Law) : x.trigger.Law := by
  obtain ⟨⟨h1, h2, h3, h4, h5⟩, hw⟩ := h
  unfold Exchange.trigger
  split
  · exact ⟨⟨h1, h2, h3, h4, h5⟩, hw⟩
  · exact ⟨⟨h1, h2, h3, fun _ => rfl, h5⟩, hw⟩

/-- A walk stops only with no record in hand. -/
theorem Exchange.Law.stopWalk (h : x.Law) (hi : x.inHand = none) : x.stopWalk.Law := by
  obtain ⟨⟨h1, h2, h3, h4, h5⟩, hw⟩ := h
  unfold Exchange.stopWalk
  split
  · exact ⟨⟨h1, h2, h3, h4, h5⟩, hw⟩
  · exact ⟨⟨h1, h2, h3, by simp [hi], h5⟩, hw⟩

theorem Exchange.Law.deadEnd (n : Nat) (h : x.Law) (hi : x.inHand = none) : (x.deadEnd n).Law := by
  unfold Exchange.deadEnd
  split
  · exact h.stopWalk hi
  · exact Exchange.Law.stopWalk (x := { x with sticky := { x.sticky with chain := true } }) h hi

theorem Exchange.Law.cleared (h : x.Law) : x.cleared.Law := by
  obtain ⟨⟨h1, h2, h3, h4, h5⟩, w1, w2, w3, w4⟩ := h
  exact ⟨⟨by simp [Exchange.cleared], Nat.zero_le _, x.count_pos, by simp [Exchange.cleared],
    by simp [Exchange.cleared]⟩, .inl rfl, by simp [Exchange.cleared], w3, w4⟩

theorem Exchange.Law.askClear (h : x.Law) : x.askClear.Law := by
  unfold Exchange.askClear
  split
  · next hi =>
    obtain ⟨⟨h1, h2, h3, h4, h5⟩, hw⟩ := h
    exact ⟨⟨h1, h2, h3, h4, fun _ => hi⟩, hw⟩
  · exact h.cleared

theorem Exchange.Law.pollExpires (h : x.Law) : x.pollExpires.Law := by
  unfold Exchange.pollExpires
  split
  · exact Exchange.Law.trigger (x := { x with pollCountdown := x.pollInterval }) h
  · exact h

theorem Exchange.Law.setEnable (on : Bool) (h : x.Law) : (x.setEnable on).Law := by
  unfold Exchange.setEnable
  split
  · exact h
  · split
    · exact Exchange.Law.trigger (x := { x with enable := true, pollCountdown := x.pollInterval }) h
    · exact h.pollExpires

theorem Exchange.Law.setBlocks (code : BitVec 2) (h : x.Law) : (x.setBlocks code).Law := by
  unfold Exchange.setBlocks
  split
  · exact h
  · obtain ⟨⟨h1, h2, h3, h4, h5⟩, hw⟩ := h
    exact ⟨⟨h1, Nat.zero_le _, Exchange.count_pos _, h4, h5⟩, hw⟩

/-- A write of a whole word to any register keeps the laws. -/
theorem Exchange.Law.writeReg (r : Reg) (v : Word) (h : x.Law) : (x.writeReg r v).Law := by
  cases r with
  | ident => exact h
  | control =>
    have hy := (h.setBlocks (v.extractLsb' 2 2)).setEnable (v.getLsbD 0)
    simp only [Exchange.writeReg]
    split
    · exact hy.askClear
    · exact hy
  | poke =>
    simp only [Exchange.writeReg]
    split
    · exact h.trigger
    · exact h
  | release => exact h.giveBack _
  | notice => exact h
  | noticeMask => exact h

theorem Exchange.Law.offer (r : ReqHead) (kind : Byte) (args : List Byte) (h : x.Law) : (x.offer r kind args).Law := by
  obtain ⟨hs, w1, w2, w3, w4⟩ := h
  refine ⟨hs, w1, w2, x.offer_wf r kind args w3, ?_⟩
  unfold Exchange.offer
  refine controllerWrites_anchor _ _ ?_
  split
  · exact controllerWrites_anchor _ _ w4
  · exact w4

/-- An outcome written at a record's offset completes its take. -/
theorem Exchange.Law.finish (t : TakeHead) (r : Result) (reply : Option (List Byte)) (h : x.Law)
    (ht : goodOffset t.off = true) : (x.finish t r reply).Law := by
  have hoff : Config.anchor ≤ t.off := by
    have := ((goodOffset_iff _).1 ht).2.1
    simp only [Config.anchor]; omega
  obtain ⟨⟨h1, h2, h3, h4, h5⟩, w1, w2, w3, w4⟩ := h
  have hm : Memory.wf (x.writeOutcome t r reply).mem ∧ ∀ cell ∈ (x.writeOutcome t r reply).mem, Config.anchor ≤ cell.1 := by
    unfold Exchange.writeOutcome
    cases reply with
    | none => exact ⟨writeBytes_wf _ _ w3, writeBytes_anchor _ hoff w4⟩
    | some bs => exact ⟨writeBytes_wf _ _ (writeBytes_wf _ _ w3),
        writeBytes_anchor _ hoff (writeBytes_anchor _ (by omega) w4)⟩
  have key : ∀ (walk again clear : Bool), clear = false →
      ({ x.writeOutcome t r reply with
        cursor := t.off, inHand := none, walking := walk, again := again, clearAsked := clear } : Exchange).Law :=
    fun walk again clear hcl => ⟨⟨h1, h2, h3, by simp, by simp [hcl]⟩, .inr ht, by simp, hm.1, hm.2⟩
  unfold Exchange.finish Exchange.complete
  dsimp only
  generalize hy : (if (x.writeOutcome t r reply).enable = true then
      ({ x.writeOutcome t r reply with cursor := t.off, inHand := none } : Exchange)
    else { x.writeOutcome t r reply with cursor := t.off, inHand := none, walking := false, again := false }) = y
  have hyc : ∃ walk again, y = ({ x.writeOutcome t r reply with
      cursor := t.off, inHand := none, walking := walk, again := again } : Exchange) := by
    subst hy
    split
    · exact ⟨_, _, rfl⟩
    · exact ⟨false, false, rfl⟩
  obtain ⟨walk, again, rfl⟩ := hyc
  split
  · exact (key walk again false rfl).cleared
  · next hcl => exact key walk again _ (by simpa using hcl)

theorem Exchange.Law.writeReply (h : x.Law) : x.writeReply.Law := by
  unfold Exchange.writeReply
  split
  · exact h
  · next k hk =>
    split
    · exact h
    · exact h.finish _ _ _ (h.2.2.1 k hk)

end laws

/-- The Exchange Unit's boundary work brought to its end keeps its laws. -/
theorem State.exchangeSettled_law {s : State} (h : s.ex.Law) : s.exchangeSettled.ex.Law := by
  have hc : s.closeInterval.ex.Law := by
    unfold State.closeInterval
    split
    · exact Exchange.Law.takeSnapshot (x := { s.ex with meterCountdown := s.ex.meterInterval }) _ h
    · exact h
  exact hc.pollExpires

/-- The Exchange Unit at power-on keeps its laws. -/
theorem Exchange.reset_law : resetExchange.Law := by
  refine ⟨⟨by decide, by decide, by decide, by decide, by decide⟩, .inl rfl, by simp [resetExchange], reset_mem_wf, ?_⟩
  simp [resetExchange]

end Sys2Proof.Machine
end

