-- ==== Sys2Proof/Laws/Tracker.lean ====
section
/-! SUPPORT. The Gain Tracker's operations on one channel record: which of the settings each of them can change, and that
the settings stay legal (R3). -/

namespace Sys2Proof.Machine

/-- The settings a channel record holds. -/
def Chan.settings (ch : Chan) : Setting × Setting × Setting × List PendingEntry × Option LastSent :=
  (ch.ack, ch.app, ch.tgt, ch.pend, ch.lastSent)

/-- Who owns a channel, its phantom target and its start-up flag. -/
def Chan.standing (ch : Chan) : Option Feed × Bool × Bool := (ch.owner, ch.phantomTgt, ch.startup)

theorem Chan.settings_iff {a b : Chan} : a.settings = b.settings ↔
    a.ack = b.ack ∧ a.app = b.app ∧ a.tgt = b.tgt ∧ a.pend = b.pend ∧ a.lastSent = b.lastSent := by
  simp [Chan.settings]

/-- Legality depends on the settings alone. -/
theorem Chan.legal_of_settings {a b : Chan} (h : a.settings = b.settings) (hb : b.legal) : a.legal := by
  obtain ⟨h1, h2, h3, h4, h5⟩ := Chan.settings_iff.1 h
  unfold Chan.legal at *
  rwa [h1, h2, h3, h4, h5]

section tracker
variable (c : ChanId) (ch : Chan)

@[simp] theorem Chan.enterZc_settings : ch.enterZc.settings = ch.settings := rfl
@[simp] theorem Chan.enterZc_standing : ch.enterZc.standing = ch.standing := rfl
@[simp] theorem Chan.opening_settings (t : Option Half) : (ch.opening t).settings = ch.settings := rfl
@[simp] theorem Chan.opening_standing (t : Option Half) : (ch.opening t).standing = ch.standing := rfl
@[simp] theorem Chan.close_settings : (ch.close c).1.settings = ch.settings := rfl
@[simp] theorem Chan.close_standing : (ch.close c).1.standing = ch.standing := rfl
@[simp] theorem Chan.closeIdle_settings : (ch.closeIdle c).1.settings = ch.settings := rfl
@[simp] theorem Chan.closeIdle_standing : (ch.closeIdle c).1.standing = ch.standing := rfl

@[simp] theorem Chan.settleCheck_settings : (ch.settleCheck c).1.settings = ch.settings := by
  unfold Chan.settleCheck; split <;> rfl

@[simp] theorem Chan.settleCheck_standing : (ch.settleCheck c).1.standing = ch.standing := by
  unfold Chan.settleCheck; split <;> rfl

@[simp] theorem Chan.respond_settings (t : Option Half) : (ch.respond c t).1.settings = ch.settings := by
  unfold Chan.respond; repeat' (first | rfl | split)

@[simp] theorem Chan.respond_standing (t : Option Half) : (ch.respond c t).1.standing = ch.standing := by
  unfold Chan.respond; repeat' (first | rfl | split)

/-- All that the settle check can do (R78). -/
theorem Chan.settleCheck_settles : ch.SettlesTo c (ch.settleCheck c).1 (ch.settleCheck c).2 := by
  unfold Chan.SettlesTo Chan.settleCheck
  refine ⟨fun h => by rw [if_neg h]; exact ⟨rfl, rfl⟩, fun h => ?_⟩
  rw [if_pos h]
  refine ⟨rfl, fun o => ?_, fun o n => ?_, fun n o hn => ?_⟩ <;> simp [Chan.closeIdle, Chan.close, Chan.endEvent, Chan.cancelledEvent, *]

/-- A request's or a swap's target replaces the target and no other setting. -/
theorem Chan.requestTarget_settings (t : Option Half) (x : Setting) :
    (ch.requestTarget c t x).1.settings = (ch.ack, ch.app, x, ch.pend, ch.lastSent) :=
  Chan.respond_settings c (ch.record t x) t

@[simp] theorem Chan.requestTarget_standing (t : Option Half) (x : Setting) :
    (ch.requestTarget c t x).1.standing = ch.standing :=
  Chan.respond_standing c (ch.record t x) t

/-- The guard's target replaces the target and no other setting. -/
theorem Chan.guardTarget_settings (x : Setting) :
    (ch.guardTarget c x).1.settings = (ch.ack, ch.app, x, ch.pend, ch.lastSent) := by
  unfold Chan.guardTarget
  dsimp only
  split
  · next h => subst h; rfl
  · exact Chan.respond_settings c { ch with tgt := x } none

@[simp] theorem Chan.guardTarget_standing (x : Setting) : (ch.guardTarget c x).1.standing = ch.standing := by
  unfold Chan.guardTarget
  dsimp only
  split
  · rfl
  · exact Chan.respond_standing c { ch with tgt := x } none

/-- A change of owner leaves every setting but the target, which becomes the acknowledged or the last sent one, or stays. -/
theorem Chan.cancel_settings (k : OwnCause) :
    ∃ x, (ch.cancel c k).1.settings = (ch.ack, ch.app, x, ch.pend, ch.lastSent) ∧
      (x = ch.tgt ∨ x = ch.ack ∨ ∃ l, ch.lastSent = some l ∧ x = l.sent.setting) := by
  have hnote : ∃ x, (ch.noteCancel k).settings = (ch.ack, ch.app, x, ch.pend, ch.lastSent) ∧
      (x = ch.tgt ∨ x = ch.ack ∨ ∃ l, ch.lastSent = some l ∧ x = l.sent.setting) := by
    refine ⟨(ch.noteCancel k).tgt, rfl, ?_⟩
    unfold Chan.noteCancel
    cases ch.lastSent <;> simp
  unfold Chan.cancel
  repeat' (first
    | exact ⟨ch.tgt, rfl, .inl rfl⟩
    | exact ⟨ch.ack, rfl, .inr (.inl rfl)⟩
    | exact hnote
    | split)

@[simp] theorem Chan.cancel_standing (k : OwnCause) : (ch.cancel c k).1.standing = ch.standing := by
  unfold Chan.cancel; repeat' (first | rfl | split)

/-- The step that a grant carries is legal between legal settings (R3, R75). -/
theorem Chan.nextStep_legal (h : ch.legal) : ch.nextStep.2.legal := by
  obtain ⟨ha, _, ht, _⟩ := h
  unfold Chan.nextStep
  split
  · exact ha
  · split
    · exact ⟨by dsimp only; omega, by dsimp only; omega, by dsimp only; omega⟩
    · split
      · exact ⟨by dsimp only; omega, by dsimp only; omega, by dsimp only; omega⟩
      · exact ha

theorem Chan.toSend_legal (h : ch.legal) : ch.toSend.setting.legal := by
  unfold Chan.toSend
  dsimp only
  split
  · exact ch.nextStep_legal h
  · exact h.1

/-! ### Each operation keeps a channel record legal -/

theorem Chan.requestTarget_legal (t : Option Half) {x : Setting} (h : ch.legal) (hx : x.legal) :
    (ch.requestTarget c t x).1.legal := by
  obtain ⟨h1, h2, h3, h4, h5⟩ := (Chan.settings_iff (b := { ch with tgt := x })).1 (ch.requestTarget_settings c t x)
  unfold Chan.legal at *
  rw [h1, h2, h3, h4, h5]
  exact ⟨h.1, h.2.1, hx, h.2.2.2⟩

theorem Chan.guardTarget_legal {x : Setting} (h : ch.legal) (hx : x.legal) : (ch.guardTarget c x).1.legal := by
  obtain ⟨h1, h2, h3, h4, h5⟩ := (Chan.settings_iff (b := { ch with tgt := x })).1 (ch.guardTarget_settings c x)
  unfold Chan.legal at *
  rw [h1, h2, h3, h4, h5]
  exact ⟨h.1, h.2.1, hx, h.2.2.2⟩

theorem Chan.cancel_legal (k : OwnCause) (h : ch.legal) : (ch.cancel c k).1.legal := by
  obtain ⟨x, hs, hx⟩ := ch.cancel_settings c k
  obtain ⟨h1, h2, h3, h4, h5⟩ := (Chan.settings_iff (b := { ch with tgt := x })).1 hs
  have hl : x.legal := by
    rcases hx with rfl | rfl | ⟨l, hl, rfl⟩
    · exact h.2.2.1
    · exact h.1
    · exact h.2.2.2.2 l hl
  unfold Chan.legal at *
  rw [h1, h2, h3, h4, h5]
  exact ⟨h.1, h.2.1, hl, h.2.2.2⟩

theorem Chan.granted_legal (h : ch.legal) : ch.granted.legal := by
  refine ⟨h.1, h.2.1, h.2.2.1, h.2.2.2.1, ?_⟩
  rintro l ⟨⟩
  exact ch.toSend_legal h

theorem Chan.answerPhantom_settings (held fault : Bool) : (ch.answerPhantom c held fault).1.settings = ch.settings := by
  unfold Chan.answerPhantom; repeat' (first | rfl | split)

theorem Chan.answerSetting_legal (now : Word) {x : Setting} (h : ch.legal) (hx : x.legal) :
    (ch.answerSetting now x).legal := by
  unfold Chan.answerSetting
  split
  · exact h
  · refine ⟨hx, h.2.1, h.2.2.1, ?_, h.2.2.2.2⟩
    intro e he
    simp only [List.mem_append, List.mem_singleton] at he
    rcases he with he | rfl
    · exact h.2.2.2.1 e he
    · exact hx

theorem Chan.afterAnswer_settings : (ch.afterAnswer c).1.settings = ch.settings := by
  unfold Chan.afterAnswer; repeat' (first | rfl | exact Chan.settleCheck_settings c ch | split)

/-- A good answer keeps the record legal. -/
theorem Chan.stepAnswer_legal (now : Word) (sent : SentState) {held : SentState} (fault : Bool) (h : ch.legal)
    (hh : held.setting.legal) : (ch.stepAnswer c now sent held fault).1.legal := by
  unfold Chan.stepAnswer
  exact Chan.legal_of_settings (Chan.afterAnswer_settings c _)
    (Chan.answerSetting_legal _ now (Chan.legal_of_settings (ch.answerPhantom_settings c _ _) h) hh)

theorem Chan.failStep_legal (h : ch.legal) : (ch.failStep c).1.legal := by
  refine ⟨h.1, h.2.1, h.2.2.1, h.2.2.2.1, ?_⟩
  intro l hl
  simp only [Chan.failStep, Option.map_eq_some_iff] at hl
  obtain ⟨l', hl', rfl⟩ := hl
  exact h.2.2.2.2 l' hl'

theorem Chan.adopt_legal {found : SentState} (h : ch.tgt.legal) (hf : found.setting.legal) : (ch.adopt found).legal :=
  ⟨hf, hf, h, by simp [Chan.adopt], by simp [Chan.adopt]⟩

theorem Chan.faultPhantom_settings : (ch.faultPhantom c).1.settings = ch.settings := rfl

theorem Chan.readUpdate_legal {read : SentState} (fault : Bool) (h : ch.legal) (hr : read.setting.legal) :
    (ch.readUpdate c read fault).1.legal := by
  have ht : (if fault then ch.faultPhantom c else (ch, [])).1.tgt = ch.tgt := by split <;> rfl
  have ha : ∀ p : Chan × List Event, p.1.tgt = ch.tgt →
      (p.1.adopt { read with phantom := readPhantom read fault }).legal := fun p hp =>
    Chan.adopt_legal _ (by rw [hp]; exact h.2.2.1) hr
  unfold Chan.readUpdate
  generalize (if fault then ch.faultPhantom c else (ch, [])) = p at ht ⊢
  dsimp only
  split
  · exact Chan.legal_of_settings rfl (ha p ht)
  · exact ha p ht

theorem Chan.afterDisagreement_settings : (ch.afterDisagreement c).1.settings = ch.settings := by
  unfold Chan.afterDisagreement; repeat' (first | rfl | exact Chan.settleCheck_settings c ch | split)

/-- A good readback keeps the record legal. -/
theorem Chan.readback_legal {read : SentState} (fault : Bool) (h : ch.legal) (hr : read.setting.legal) :
    (ch.readback c read fault).1.legal := by
  unfold Chan.readback
  split
  · unfold Chan.startUp
    refine Chan.legal_of_settings (Chan.settleCheck_settings c _) ?_
    dsimp only
    have ht : (if ch.tgtSet = true then ch.tgt else read.setting).legal := by
      split
      · exact h.2.2.1
      · exact hr
    split <;> exact Chan.legal_of_settings rfl (Chan.adopt_legal
      { ch with
        tgt := if ch.tgtSet then ch.tgt else read.setting
        phantomTgt := if ch.phantomTgtSet then ch.phantomTgt else readPhantom read fault }
      (found := { read with phantom := readPhantom read fault }) ht hr)
  · split
    · exact Chan.legal_of_settings (Chan.settleCheck_settings c _) (ch.readUpdate_legal c fault h hr)
    · split
      · split
        · exact Chan.legal_of_settings (ch.faultPhantom_settings c) h
        · exact h
      · exact Chan.legal_of_settings (Chan.afterDisagreement_settings c _) (ch.readUpdate_legal c fault h hr)

theorem Chan.applyHead_legal (h : ch.legal) : (ch.applyHead c).1.legal := by
  unfold Chan.applyHead
  split
  · exact h
  · next e rest he =>
    have ha : ({ ch with app := e.setting, pend := rest } : Chan).legal :=
      ⟨h.1, h.2.2.2.1 e (by simp [he]), h.2.2.1, fun x hx => h.2.2.2.1 x (by simp [he, hx]), h.2.2.2.2⟩
    dsimp only
    split
    · exact Chan.legal_of_settings (Chan.settleCheck_settings c _) ha
    · exact ha

theorem Chan.watch_settings (x : Int) : (ch.watch x).settings = ch.settings := rfl

end tracker

/-! ### Levels -/

/-- The level of a legal setting is one of the 82 (R3). -/
theorem Setting.level_legal {x : Setting} (h : x.legal) : legalLevel x.level := by
  obtain ⟨h1, h2, h3⟩ := h
  unfold Setting.level padValue
  split
  · right; omega
  · left; omega

/-- All that a new applied level does to a crosspoint (R51, R52, R69). -/
theorem Xp.relevel_atLevel (x : Xp) {old new : Int} (h : old ≠ new) : x.AtLevel old new (x.relevel old new) := by
  refine ⟨fun e => absurd e h, fun _ => ⟨fun k => ?_, fun r k m => ?_, fun t r k => ?_⟩⟩ <;> simp [Xp.relevel, *] <;> rfl

/-- A reply's fold is clamped where the compensation it took lies outside the gain range at that level (R52). -/
theorem XpReply.foldClamped_iff (r : XpReply) (lapp : Int) : r.foldClamped lapp = true ↔
    ∃ trim ref, r.fold = some (trim, ref) ∧ (trim + ref - lapp < -240 ∨ 96 < trim + ref - lapp) := by
  unfold XpReply.foldClamped
  cases r.fold with
  | none => simp
  | some p => simp [foldRaw, clampGain, Prod.ext_iff]; omega

theorem clampGain_legal (x : Int) : legalTrim (clampGain x) := by
  unfold clampGain legalTrim; omega

/-- A requested code brought onto the grid is an analog code (R55, R176). -/
theorem roundCode_legal (n : Nat) (padIn : Bool) : ({ analog := (roundCode n : Nat), padIn := padIn } : Setting).legal := by
  unfold Setting.legal roundCode
  dsimp only
  split
  · omega
  · split <;> omega

/-- The applied level changes only where the applied setting does. -/
theorem Chan.level_of_settings {a b : Chan} (h : a.settings = b.settings) : a.level = b.level := by
  unfold Chan.level; rw [(Chan.settings_iff.1 h).2.1]

end Sys2Proof.Machine
end

