-- ==== Sys2Proof/Tests/Slice0.lean ====
section
/-! SUPPORT. Tests: the well-formedness checks each refuse an ill-formed command; single steps whose results the manual's
worked cases and rules give; and, for every statement with hypotheses, a state and operands that meet them together. -/

namespace Sys2Proof.Tests

set_option Elab.async false

open Sys2Proof.Machine

/-! ### States the tests start from -/

/-- The next state of an outcome, the power-on state where there is none. -/
def nextOf : Host.Outcome State Fault Refusal → State
  | .next s => s
  | .fault _ | .refused _ => State.reset

/-- An idle channel past its start-up readback. -/
def idleChan : Chan := { resetChan with op := .idle, startup := false }

/-- A state in which nothing is due: no boundary work, all lanes judged and IN_SYNC, no board asking. -/
def calm : State :=
  { State.reset with
    owed := []
    lanes := Vector.replicate 8 { fault := false, run := 0, judged := true }
    boards := Vector.replicate 8 { offline := false, failures := 0, request := .idle, countdown := 0 } }

/-- A state whose exchange is enabled, with a walk that stands at the empty chain's end. -/
def ready : State :=
  { calm with ex := { resetExchange with enable := true, walking := true }, feedOn := perFeed true }

/-- Channel 7 of `ready` owned by feed B, past start-up. -/
def owned : State :=
  (ready.setChan 7 { idleChan with owner := some .b }).setXp 7 .b { resetXp with mode := .owner, trim := 6 }

/-- A record at 0x00080 for channel 7, by source byte and feed byte. -/
def hd (source feed : Byte) : ReqHead := { off := 0x80#32, source := source, tag := 0x0101#16, channel := 7#8, feed := feed }

/-- A character with the parity bit that makes it sound. -/
def sound (data : Byte) : LineChar := sendChar data false

/-! ### Well-formedness: each check refuses -/

theorem test_wf_units_once : (Instr.blockBoundary [.clock, .clock] ⟨true, 0⟩).wellFormed = false := by decide

theorem test_wf_walk_inside_memory : (Instr.chainWalk [(0x20000, 1#8)]).wellFormed = false ∧
    (Instr.chainWalk [(0x1FFFF, 1#8)]).wellFormed = true := by decide

theorem test_wf_bad_kind : (Instr.badKind (hd 5 0) 17#8).wellFormed = false ∧
    (Instr.badKind (hd 5 0) 18#8).wellFormed = true ∧ (Instr.badKind (hd 5 0) 0#8).wellFormed = true := by decide

/-- An offset below the window, beyond its last record, or not a multiple of 64. -/
theorem test_wf_offsets : (ReqHead.wf ⟨0x40#32, 5#8, 0, 0, 0⟩ || ReqHead.wf ⟨0x10000#32, 5#8, 0, 0, 0⟩ ||
    ReqHead.wf ⟨0x88#32, 5#8, 0, 0, 0⟩) = false ∧ ReqHead.wf ⟨0xFFC0#32, 5#8, 0, 0, 0⟩ = true := by decide

theorem test_wf_requests : ∀ i ∈ (let h : ReqHead := ⟨0x88#32, 5#8, 0, 0, 0⟩
    [.badKind h 0, .setAnalog h 0, .setPad h 0, .setPhantom h 0, .readChannel h, .resync h, .setGuard h 0 0 0 0 0,
     .setTrim h 0, .setMode h 0, .setFlags h 0 0, .claim h, .release h, .setFeed h 0 0, .loadSlotmap h 0,
     .loadShadow h 0 0 0, .swap h 0, .setClock h 0, .setExchange h 0 0 0 0 0] : List Instr),
    i.wellFormed = false := by decide

theorem test_wf_ignored_write : (Instr.registerWriteIgnored .control 1#32).wellFormed = false ∧
    (Instr.registerWriteIgnored .poke 0xFFFFFFFF#32).wellFormed = false ∧
    (Instr.registerWriteIgnored .ident 0#32).wellFormed = true ∧
    (Instr.registerWriteIgnored .control 0x11#32).wellFormed = true := by decide

/-! ### The gain arithmetic (section 1.5) -/

/-- Case 1: x = 1,000,000 at −30. -/
theorem test_cut : sampleOut 1000000 (-30) false false = (420448, false) := by decide

/-- Case 2: a boost that saturates; mute hides the sample, not the mark. -/
theorem test_saturation : sampleOut 8000000 24 false false = (8388607, true) ∧
    sampleOut 8000000 24 true false = (-8388607, true) ∧ sampleOut 8000000 24 false true = (0, true) := by decide

/-- Case 3: halves go up. -/
theorem test_halves : sampleOut (-3) 0 false false = (-3, false) ∧ sampleOut 3 (-24) false false = (2, false) ∧
    sampleOut (-3) (-24) false false = (-1, false) := by decide

/-- Case 6: the edges of the top gain, and the inverted smallest sample. -/
theorem test_top_gain : sampleOut 524287 96 false false = (8388592, false) ∧
    sampleOut (-524288) 96 false false = (-8388608, false) ∧ sampleOut (-524288) 96 true false = (8388607, true) ∧
    sampleOut (-524289) 96 true false = (8388607, true) := by decide

/-- Case 5: feed D at the pad step, limited, and after the next step. -/
theorem test_limit : ({ resetXp with mode := .track 180, trim := 20 } : Xp).gain 100 = 96 ∧
    outOfRange (({ resetXp with mode := .track 180, trim := 20 } : Xp).raw 100) = true ∧
    ({ resetXp with mode := .track 180, trim := 20 } : Xp).heard 106 = 200 := by decide

/-- Codes on and off the grid: sections 4.9, 5.5 and 6.8 give 151, 147 and 175. -/
theorem test_round_code : roundCode 151 = 150 ∧ roundCode 147 = 144 ∧ roundCode 175 = 174 ∧ roundCode 154 = 156 ∧
    roundCode 65535 = 240 := by decide

/-! ### Lanes and the line (Chapter 2) -/

/-- The sixteenth good frame is delivered (R25). -/
theorem test_lane_recovers :
    let s := nextOf (exec (.laneFrame 2 (.good (Vector.replicate 8 0xFFFFFF#24)))
      { State.reset with lanes := Vector.replicate 8 { fault := true, run := 15, judged := false } })
    s.lanes[2] = { fault := false, run := 0, judged := true } ∧ s.samples[16] = -1 ∧ s.samples[15] = 0 ∧
      s.ex.queue = [{ stamp := 0#32, event := .input 2 false }] := by decide +kernel

/-- A bad frame faults a lane that was IN_SYNC (R24). -/
theorem test_lane_faults :
    let s := nextOf (exec (.laneFrame 2 .framingError) { calm with lanes := Vector.replicate 8 ⟨false, 0, false⟩ })
    s.lanes[2] = { fault := true, run := 0, judged := true } ∧ s.ex.sticky.urgent = true := by decide +kernel

/-- The address character of a STEP to channel 12: board 1, command 1, seven bits and a parity bit (R28, R30, R32). -/
theorem test_step_characters : stepChars 12 ⟨⟨126, true⟩, true⟩ =
    [⟨0x11#8, true, true, true⟩, ⟨0x1C#8, false, true, true⟩, ⟨21#8, false, true, true⟩] := by decide

/-- Section 2.7, decision 5: four URGENT grants were made, so channel 12 is granted from the ordinary pointer 10. -/
theorem test_fairness :
    let asking : Chan := { idleChan with op := .lineWait }
    let s := { ((calm.setChan 33 { asking with urgent := true }).setChan 5 asking).setChan 12 asking with
      arb := { urgentPtr := 41, ordinaryPtr := 10, fairness := 4, together := true } }
    s.choose (some 33) = some (12, false, true) ∧ (s.arb.afterGrant 12 false true).ordinaryPtr = 13 ∧
      (s.arb.afterGrant 12 false true).fairness = 0 := by decide +kernel

/-- Section 4.9, rows 3 and 4: the grant sends position 21, the good answer is due 40 periods on. -/
theorem test_step_answer :
    let ch : Chan := { idleChan with
      op := .ackWait, carried := .up, ack := ⟨120, false⟩, app := ⟨120, false⟩, tgt := ⟨144, false⟩, opened := true
      lastSent := some ⟨⟨⟨126, false⟩, false⟩, false⟩ }
    let r := ch.stepAnswer 12 100#32 ⟨⟨126, false⟩, false⟩ (pairState 0x04#8 21#8) false
    r.1.op = .settling ∧ r.1.ack = ⟨126, false⟩ ∧ r.1.app = ⟨120, false⟩ ∧ r.1.pend = [⟨⟨126, false⟩, 140#32⟩] ∧
      r.2 = [] := by decide

/-! ### Gain operations (Chapter 4) -/

/-- Section 4.9, rows 6 and 9: a superseding target, and a takeover while the step is on the line. -/
theorem test_supersede :
    let ch : Chan := { idleChan with op := .zcWait, ack := ⟨126, false⟩, tgt := ⟨144, false⟩, opened := true }
    (ch.requestTarget 12 (some 0x0102#16) ⟨150, false⟩).1.superseded = 1 := by decide

theorem test_takeover_note :
    let ch : Chan := { idleChan with
      op := .ackWait, carried := .up, ack := ⟨126, false⟩, tgt := ⟨150, false⟩, opened := true
      tag := some 0x0102#16, superseded := 1, forced := 1, lastSent := some ⟨⟨⟨132, false⟩, false⟩, false⟩ }
    let r := ch.cancel 12 .takeover
    r.1.tgt = ⟨132, false⟩ ∧ r.1.note = some ⟨some 0x0102#16, ⟨150, false⟩, 1, .takeover⟩ ∧ r.1.superseded = 0 ∧
      r.1.forced = 0 ∧ r.2 = [] := by decide

/-- The 480th sample without a crossing forces the step (R73). -/
theorem test_forced_step :
    let s := calm.setChan 3 { idleChan with op := .zcWait, window := 0 }
    ((nextOf (exec (.forcedStep 3) s)).chan 3).op = .lineWait ∧ ((nextOf (exec (.forcedStep 3) s)).chan 3).forced = 1 := by
  decide +kernel

/-- A ramp that has run out becomes what the board acknowledged (R91). -/
theorem test_ramp_end :
    ((nextOf (exec (.rampEnd 3) (calm.setChan 3 { idleChan with phantom := .rampUp, ackPhantom := true }))).chan 3).phantom =
      .on := by decide +kernel

/-! ### Requests (Chapters 3, 4 and 9) -/

/-- Section 3.7, request 1: a CLAIM by feed C, not senior, of feed B's channel is HELD. -/
theorem test_claim_held :
    let s := nextOf (exec (.claim (hd 3 2)) owned)
    readBytes s.ex.mem 0x80 4 = [2#8, 10#8, 3#8, 4#8] ∧ readByte s.ex.mem 0xA0 = 2#8 ∧ (s.chan 7).owner = some .b := by
  decide +kernel

/-- Section 3.7, request 2: the senior feed A takes the channel over and folds 0 + 138 − 150 into its trim. -/
theorem test_takeover :
    let ch : Chan := { idleChan with owner := some .b, ack := ⟨150, false⟩, app := ⟨150, false⟩, tgt := ⟨150, false⟩ }
    let s0 := (owned.setChan 7 ch).setXp 7 .a { resetXp with mode := .track 138 }
    let s := nextOf (exec (.claim (hd 1 0)) { s0 with senior := some .a })
    (s.chan 7).owner = some .a ∧ (s.xp 7 .a).mode = .owner ∧ (s.xp 7 .a).trim = -12 ∧ (s.xp 7 .b).mode = .track 150 ∧
      (s.xp 7 .b).trim = 6 ∧ s.ex.queue = [⟨0#32, .ownership 7 (some .b) (some .a) .takeover (some 0x0101#16)⟩] := by
  decide +kernel

/-- Section 3.7, request 4: SET_ANALOG 174 at target 162 by a feed that does not own adds 12 to its trim. -/
theorem test_as_trim :
    let ch : Chan := { idleChan with owner := some .a, ack := ⟨162, false⟩, app := ⟨162, false⟩, tgt := ⟨162, false⟩ }
    let s0 := (owned.setChan 7 ch).setXp 7 .b { resetXp with mode := .track 150, trim := 6 }
    let s := nextOf (exec (.setAnalog (hd 2 0) 174#16) s0)
    (s.xp 7 .b).trim = 18 ∧ (s.chan 7).tgt = ⟨162, false⟩ ∧ s.ex.inHand.isSome = true := by decide +kernel

/-- Section 4.9, row 6: a code of 151 by the owner reports CLAMPED and sets 150. -/
theorem test_set_analog :
    let s := nextOf (exec (.setAnalog (hd 2 0) 151#16) owned)
    (s.chan 7).tgt = ⟨150, false⟩ ∧ (s.chan 7).op = .zcWait ∧ readBytes s.ex.mem 0x80 4 = [2#8, 1#8, 2#8, 1#8] ∧
      s.ex.cursor = 0x80 := by decide +kernel

/-- A channel byte of 64 is BAD_CHANNEL and a source byte of 0 BAD_SOURCE (R174). -/
theorem test_common_checks :
    readByte (nextOf (exec (.setPad { hd 5 0 with channel := 64#8 } 0#8) ready)).ex.mem 0x83 = 11#8 ∧
      readByte (nextOf (exec (.setPad (hd 0 0) 0#8) ready)).ex.mem 0x83 = 13#8 := by decide +kernel

/-- The panel may set the phantom of an owned channel, but not its pad (R54). -/
theorem test_panel : readByte (nextOf (exec (.setPhantom (hd 5 0) 1#8) owned)).ex.mem 0x83 = 0#8 ∧
    readByte (nextOf (exec (.setPad (hd 5 0) 1#8) owned)).ex.mem 0x83 = 3#8 := by decide +kernel

/-- Section 5.5: floor 147 becomes 144 with CLAMPED. -/
theorem test_set_guard :
    let s := nextOf (exec (.setGuard (hd 5 0) 1#8 30000#16 4#16 147#16 200#16) ready)
    (s.guard 7).floor = 144 ∧ (s.guard 7).enable = true ∧ readByte s.ex.mem 0x83 = 1#8 := by decide +kernel

/-- Section 3.8: a disable releases the channel, which keeps tracking at the level it heard. -/
theorem test_disable :
    let s := nextOf (exec (.setFeed (hd 5 1) 1#8 0#8) owned)
    (s.chan 7).owner = none ∧ (s.xp 7 .b).mode = .track 0 ∧ s.feedOn.get .b = false ∧
      readBytes s.ex.mem 0xA8 2 = [0x80#8, 0#8] := by decide +kernel

/-- SWAP with an empty mask is BAD_ARG, and a second SWAP BUSY (R119). -/
theorem test_swap : readByte (nextOf (exec (.swap (hd 5 0) 0#64) ready)).ex.mem 0x83 = 15#8 ∧
    readByte (nextOf (exec (.swap (hd 5 0) 1#64) { ready with scenes := { resetScenes with mask := 2#64 } })).ex.mem 0x83 =
      9#8 := by decide +kernel

/-- RESYNC once the boundary has run a deferral out, before its READBACK_RETRY: the reply shows ASKING and no countdown (R40,
R48). -/
theorem test_resync_after_boundary :
    let s := nextOf (exec (.blockBoundary [.preampLine] ⟨true, 0⟩)
      { ready.setBoard 0 ⟨false, 2, .deferred, 1⟩ with owed := [.preampLine] })
    readBytes (nextOf (exec (.resync (hd 5 0)) s)).ex.mem 0xA0 6 = [0#8, 0#8, 2#8, 1#8, 0#8, 0#8] := by decide +kernel

/-- SET_CLOCK to PORT_C with no port fit: HOLDOVER in the form WAIT (R161). -/
theorem test_set_clock :
    let s := nextOf (exec (.setClock (hd 5 0) 1#8) ready)
    s.clock.ref = .nothing ∧ s.clock.lock = .holdover ∧ s.clock.form = .wait := by decide +kernel

/-- SET_CLOCK after the Clock Unit's work at a boundary, before its timeout: that CLOCK event precedes SELECT (R161). -/
theorem test_set_clock_after_boundary :
    let k : Clock := { resetClock with preferred := .portC, ref := .c1, lock := .acquiring, acq := 500 }
    let s := nextOf (exec (.setClock (hd 5 0) 0#8) { ready with clock := k })
    s.clock.lock = .locked ∧ s.ex.queue.map QueuedEvent.event =
      [.clock .acquiring .holdover .wait .rest .c1 .c1 .portC .timeout 0 0 500 .off .off false none,
       .clock .holdover .locked .rest .wait .c1 .internal .internal .select 0 0 0 .off .off false (some 0x0101#16)] := by
  decide +kernel

/-- SET_EXCHANGE brings a meter interval of 5 up to 10 and leaves what its selector does not choose (R176, R177). -/
theorem test_set_exchange :
    let s := nextOf (exec (.setExchange (hd 5 0) 4#8 9#16 9#16 5#16 7#8) ready)
    s.ex.meterInterval = 10 ∧ s.ex.pollInterval = 5 ∧ readByte s.ex.mem 0x83 = 1#8 := by decide +kernel

/-- A slot map byte of 64 is BAD_ARG; a pointer beyond the window is BAD_POINTER (R68). -/
theorem test_slot_map :
    readByte (nextOf (exec (.loadSlotmap (hd 5 0) 0x100#32) { ready with ex := { ready.ex with mem := [(0x105, 64#8)] } })
      ).ex.mem 0x83 = 15#8 ∧
    readByte (nextOf (exec (.loadSlotmap (hd 5 0) 0x10000#32) ready)).ex.mem 0x83 = 14#8 := by decide +kernel

/-! ### Boundaries (Chapters 5 to 8) -/

/-- Section 5.5, boundary 4: the fourth hot block lowers the target to 162 and marks the operation. -/
theorem test_guard_acts :
    let s := ((calm.setChan 30 { idleChan with ack := ⟨168, false⟩, app := ⟨168, false⟩, tgt := ⟨168, false⟩ }).setGuard 30
      { resetGuard with enable := true, threshold := 30000, floor := 144, overCount := 3 }).guardChan 30 32767
    (s.chan 30).tgt = ⟨162, false⟩ ∧ (s.chan 30).urgent = true ∧ (s.guard 30).restLeft = 200 ∧
      (s.guard 30).overCount = 0 := by decide +kernel

/-- The fourth invalid block takes a port from UP to DEGRADED, the eighth to DOWN (section 8.8). -/
theorem test_link_degrades :
    (({ resetPort with state := .up, judging := true, window := [true, true, true], invalidRun := 3 } : PortRec).boundary
      .c1).1.state = .degraded ∧
    (({ resetPort with state := .degraded, judging := true, invalidRun := 7 } : PortRec).boundary .c1).1.state = .down := by
  decide

/-- Section 8.8, boundaries 1,004 and 1,008: the fourth OUTSIDE block costs the lock, and an unfit C1 fails over. -/
theorem test_clock_loses_lock :
    (({ resetClock with preferred := .portC, ref := .c1, outRun := 3, armed := true } : Clock).keepLock false 0).after.form =
      .resume ∧
    (({ resetClock with preferred := .portC, ref := .c1, lock := .acquiring } : Clock).leaveUnfit false true).after.ref =
      .c2 := by decide

/-- Section 7.7: the control word of sample 4,805, slot 5, channel 12: owner B, position 22, phantom ON. -/
theorem test_control_word :
    let s := { (calm.setChan 12 { idleChan with owner := some .b, app := ⟨132, false⟩, phantom := .on }) with
      frame := 4805#32, slots := perFeed (upd resetSlots 5 (some 12)), ex := { resetExchange with unitId := 3 } }
    s.controlWord .a = 3#3 ++ 0#1 ++ 5#6 ++ (2#3 ++ 12#6 ++ 22#6 ++ 0#1 ++ 2#3 ++ 0#3) := by decide +kernel

/-- A swap that SAMPLE_PERIOD makes comes after its sample: the crosspoint that the scene mutes is heard once more (R9). -/
theorem test_late_swap :
    let shadow : SceneRecord := { resetScene with feeds := perFeed { track := false, trim := 0, mute := true, invert := false } }
    let t := nextOf (exec .samplePeriod { calm.setChan 0 idleChan with
      samples := Vector.replicate 64 5, owed := [.sceneStore]
      scenes := { resetScenes with mask := 1#64, loaded := 1#64, shadow := upd resetScenes.shadow 0 shadow } })
    t.outputs[0].get .a = 5 ∧ (t.xp 0 .a).mute = true := by decide +kernel

/-- An application after a swap in one period leaves SCENE the cause at a crosspoint in FOLLOW, whose raw gain it does not
move (R52, R69, R124). -/
theorem test_swap_keeps_cause :
    let pend : Chan := { idleChan with ack := ⟨6, false⟩, tgt := ⟨6, false⟩, pend := [⟨⟨6, false⟩, 0#32⟩] }
    let s : State := { (calm.setChan 0 pend).setXp 0 .a { resetXp with mode := .track 180, limited := true } with
      owed := [.sceneStore], scenes := { resetScenes with mask := 1#64, loaded := 1#64 } }
    let t := nextOf (exec (.pendingApplication 0) (nextOf (exec .swapApply s)))
    (t.xp 0 .a).mode = .follow ∧ (t.xp 0 .a).cause = .scene ∧ (t.chan 0).app = ⟨6, false⟩ := by decide +kernel

/-- A request before a swap in one period: every flag that differs at the swap's first sample is SCENE (R124). -/
theorem test_swap_takes_cause :
    let s : State := { (ready.setChan 7 idleChan).setXp 7 .a { resetXp with mode := .track 180, limited := true } with
      owed := [.sceneStore], scenes := { resetScenes with mask := 0x80#64, loaded := 0x80#64 } }
    let before := nextOf (exec (.setMode (hd 5 0) 0#8) s)
    let t := nextOf (exec .swapApply before)
    (before.xp 7 .a).mode = .follow ∧ (before.xp 7 .a).cause = .request ∧ (t.xp 7 .a).cause = .scene := by decide +kernel

/-- A fold that clamped makes the reply CLAMPED even where a swap came before its first sample (R52, R59, R127). -/
theorem test_swap_keeps_fold :
    let reply : XpReply := { c := 0, f := .a, former := none, codeAdjusted := false, trimClamped := false, fold := some (20, 180) }
    let s : State := { calm with
      owed := [.sceneStore], scenes := { resetScenes with mask := 1#64, loaded := 1#64 }
      ex := { resetExchange with enable := true, inHand := some ⟨takeHead (hd 5 0) 8#8, .ok, reply, none⟩ } }
    let t := nextOf (exec .samplePeriod (nextOf (exec .swapApply s)))
    (t.ex.inHand.bind InHand.ready).map Prod.fst = some .clamped := by decide +kernel

/-! ### Reports (Chapter 10) -/

/-- Section 10.6, row 6: after RELEASE 3 the GAP goes into block 5. -/
theorem test_gap_first :
    let x : Exchange := { resetExchange with
      enable := true, blocksCode := 0#2, oldest := 8, filled := 13, lost := 2, queue := [⟨9#32, .input 0 true⟩] }
    x.writeNext.lost = 0 ∧ x.writeNext.filled = 14 ∧ readByte x.writeNext.mem (0x10000 + 512 * 5) = 14#8 ∧
      x.writeNext.queue.length = 1 := by decide +kernel

/-- A write to NOTICE_MASK replaces all five enables, and one to CONTROL holds ENABLE, whatever their unnamed bits hold
(R166, R167). -/
theorem test_unnamed_bits :
    let s : State := { calm with ex := { resetExchange with mask := 0x1F#5 } }
    (nextOf (exec (.registerWriteIgnored .noticeMask 0x20#32) s)).ex.mask = 0#5 ∧
      (nextOf (exec (.registerWriteIgnored .control 0x10#32) ready)).ex.enable = false := by decide +kernel

/-- Section 10.6, row 7: a RELEASE of 20 with 16 filled sets EXCESS. -/
theorem test_excess :
    let s := nextOf (exec (.releaseWrite 20#32)
      { calm with ex := { resetExchange with blocksCode := 0#2, oldest := 8, filled := 16 } })
    s.ex.oldest = 8 ∧ s.ex.filled = 0 ∧ s.ex.sticky.excess = true := by decide +kernel

end Sys2Proof.Tests
end

