-- ==== Sys2Proof/Tests/Witness.lean ====
section
/-! SUPPORT. For every statement with hypotheses, states and operands that meet them together, clause by clause where a
statement has several. -/

namespace Sys2Proof.Tests

set_option Elab.async false

open Sys2Proof.Machine

/-! ### The whole part -/

theorem witness_OnlySamplePeriodsCount : (∃ t, exec .powerOnReset calm = .next t) ∧ (∃ t, exec .samplePeriod calm = .next t) ∧
    ∃ t, exec .meterClose calm = .next t := ⟨⟨_, rfl⟩, ⟨_, rfl⟩, ⟨_, rfl⟩⟩

/-- The state from which the invariants' witnesses step: a POKE waits. -/
def poked : State := { ready with pending := [.poke 0#32] }

theorem poked_chan (c : ChanId) : poked.chan c = resetChan := by
  simp [poked, ready, calm, State.reset, State.chan]

theorem poked_xp (c : ChanId) (f : Feed) : poked.xp c f = resetXp := by
  simp [poked, ready, calm, State.reset, State.xp]

theorem witness_LevelsStayLegal : ∃ s t : State, s.LevelLaw ∧ step s = .next t := by
  refine ⟨poked, _, ⟨?_, ?_, ?_, ?_⟩, rfl⟩
  · intro c
    rw [poked_chan]
    refine ⟨by decide, by decide, by decide, by decide, fun l h => by cases h⟩
  · intro c f
    rw [poked_xp]
    exact ⟨by decide, fun r h => by cases h⟩
  · intro c
    have : poked.scenes.shadow[c] = resetScene := by simp [poked, ready, calm, State.reset, resetScenes]
    rw [this]
    exact ⟨by decide, fun f => by cases f <;> decide⟩
  · intro t h
    cases h

theorem witness_OwnersStayLawful : ∃ s t : State, s.OwnerLaw ∧ step s = .next t := by
  refine ⟨poked, _, ⟨?_, ?_⟩, rfl⟩
  · intro c f; rw [poked_chan, poked_xp]; simp [resetXp, resetChan]
  · intro c f; rw [poked_chan]; simp [resetChan]

theorem ready_law : ready.ex.StoreLaw ∧ ready.ex.WalkLaw :=
  ⟨⟨by decide, by decide, by decide, by decide, by decide⟩, .inl rfl, (fun _ h => nomatch h), reset_mem_wf,
    (fun _ h => nomatch h)⟩

theorem witness_StoreStaysBounded : ∃ s t : State, s.ex.StoreLaw ∧ step s = .next t := ⟨poked, _, ready_law.1, rfl⟩

theorem witness_CursorStaysInWindow : ∃ s t : State, s.ex.WalkLaw ∧ step s = .next t := ⟨poked, _, ready_law.2, rfl⟩

theorem witness_ClockStaysTied : ∃ s t : State, s.clock.Law ∧ step s = .next t := ⟨poked, _, ⟨rfl, rfl⟩, rfl⟩

/-! ### The gain arithmetic and the samples -/

/-- The ends of the TRACK range, both limited, and an unlimited crosspoint. -/
theorem witness_RawGainAndHeardLevel : legalTrim (-240) ∧ legalTrim 96 ∧ legalLevel (-80) ∧ legalLevel 240 ∧
    ({ resetXp with mode := .track (-80), trim := -240 } : Xp).raw 240 = -560 ∧
    ({ resetXp with mode := .track 240, trim := 96 } : Xp).raw (-80) = 416 ∧
    outOfRange (({ resetXp with mode := .track 120, trim := -12 } : Xp).raw 132) = false ∧
    resetXp.mode = .follow := by decide

theorem witness_UnityGainIsTransparent : minSample ≤ (8388607 : Int) ∧ (8388607 : Int) ≤ maxSample ∧ 4 ≤ 4 ∧ 10 ≤ 10 ∧
    minSample ≤ (524287 : Int) * 2 ^ 4 ∧ (524287 : Int) * 2 ^ 4 ≤ maxSample ∧ maxSample < (524288 : Int) * 2 ^ 4 ∧
    (-524289 : Int) * 2 ^ 4 < minSample := by decide

/-- A muted crosspoint, a running C1 and C2, a stopped port, a start-up channel, a swap left to SAMPLE_PERIOD that leaves
channel 0 alone, a lane that was judged and one that was not, and frame numbers before a boundary and not. -/
theorem witness_SamplePeriodOutputs :
    let up : PortRec := { resetPort with state := .up }
    let s : State := { (calm.setXp 0 .a { resetXp with mute := true }) with
      ports := { perPort resetPort with c1 := up, c2 := up }
      owed := [.sceneStore], scenes := { resetScenes with mask := 2#64, loaded := 2#64 } }
    let t := nextOf (exec .samplePeriod s)
    (s.scenes.mask &&& s.scenes.loaded).getLsbD 0 = false ∧ calm.owed.contains .sceneStore = false ∧
    (t.xp 0 .a).mute = true ∧ (t.port .c1).state ≠ .off ∧ (t.port .c2).state ≠ .off ∧ (t.port .a).state = .off ∧
    (t.chan 0).startup = true ∧ calm.lanes[(0 : LaneId)].judged = true ∧
    State.reset.lanes[(0 : LaneId)].judged = false ∧
    (47#32 + 1#32).toNat % 48 = 0 ∧ (0xFFFFFFFF#32 + 1#32).toNat % 48 = 0 ∧ (0#32 + 1#32).toNat % 48 ≠ 0 := by
  decide +kernel

/-- A state with nothing due whose channel 7 examines samples of 5 after a negative last sign, or finds no crossing; its
crosspoint to feed A becomes limited, and port A runs with slot 0 filled or empty. -/
def watching (neg filled : Bool) : State :=
  { (calm.setChan 7 { idleChan with op := .zcWait, window := 480, lastNeg := neg }).setXp 7 .a
      { resetXp with mode := .track 120 } with
    samples := Vector.replicate 64 5
    ports := { perPort resetPort with a := { resetPort with state := .up } }
    slots := perFeed (Vector.replicate 64 (if filled then some 7 else none)) }

/-- The same with the boundary's work left to SAMPLE_PERIOD and a meter interval about to close, ENABLE on or off. -/
def watchingLate (on : Bool) : State :=
  { watching true true with owed := allUnits, ex := { resetExchange with meterCountdown := 1, enable := on } }

/-- The same in the period in which channel 7 entered ZC_WAIT. -/
def watchingFresh : State :=
  (watching true true).setChan 7 { idleChan with op := .zcWait, window := 480, fresh := true }

/-- The same with a lane IN_SYNC whose frame is missing and a transaction in flight, its window about to run out. -/
def watchingMissing : State :=
  { watching true true with
    lanes := Vector.replicate 8 { fault := false, run := 0, judged := false }
    line := some ⟨.readback, 0, [], none, 95⟩ }

theorem witness_SamplePeriodWatches :
    (∀ s ∈ [watching true true, watching false false, watchingLate true, watchingLate false, watchingFresh, watchingMissing],
      s.calmBefore = true ∧ (0 : SlotId).val = s.frame.toNat % 64) ∧
    watchingMissing.calmAfter = true ∧ watchingMissing.lanes[(0 : LaneId)].judged = false ∧
    watchingMissing.lanes[(0 : LaneId)].fault = false ∧ (watching true true).lanes[(0 : LaneId)].judged = true ∧
    (∀ on ∈ [true, false], let s := watchingLate on
      s.ex.meterCountdown ≤ (if s.owed.contains .exchange then 1 else 0) ∧ s.ex.enable = on ∧ Memory.wf s.ex.mem ∧
        s.ex.filled < s.ex.count ∧ s.ex.held = none) ∧
    (watchingFresh.chan 7).op = .zcWait ∧ (watchingFresh.chan 7).fresh = true ∧
    watchingFresh.owed.contains .meterGuard = false ∧ watchingFresh.owed.contains .sceneStore = false ∧
    ¬((watching true true).ex.meterCountdown ≤ if (watching true true).owed.contains .exchange then 1 else 0) ∧
    (watchingLate true).owed.contains .meterGuard = true ∧ (watching true true).calmAfter = true ∧
    (watching true true).owed.contains .meterGuard = false ∧ (watching true true).owed.contains .sceneStore = false ∧
    ((watching true true).slots.get .a)[(0 : SlotId)] = some 7 ∧ ((watching false false).slots.get .a)[(0 : SlotId)] = none ∧
    (96 < ((watching true true).xp 7 .a).raw ((watching true true).chan 7).level) ∧
    ((watching true true).xp 7 .a).limited = false ∧
    ((watching true true).chan 7).op = .zcWait ∧ ((watching true true).chan 7).fresh = false ∧
    ((watching true true).chan 7).window ≠ 0 ∧
    decide ((watching true true).samples[7] < 0) ≠ ((watching true true).chan 7).lastNeg ∧
    decide ((watching false false).samples[7] < 0) = ((watching false false).chan 7).lastNeg ∧
    (sampleOut 8388607 96 false false).2 = true ∧
    ((-30 : Int) = 24 * (-2) + 18 ∧ ((17 : Nat) : Int) = 15 - (-2) ∧ (2 : Int) ^ 17 * 420448 ≤ 1000000 * 55109 + 2 ^ 16 ∧
      (1000000 : Int) * 55109 + 2 ^ 16 < 2 ^ 17 * (420448 + 1) ∧ (420448 : Int) = max (-8388608) (min 8388607 420448)) ∧
    ((96 : Int) = 24 * 4 + 0 ∧ ((11 : Nat) : Int) = 15 - 4 ∧ (2 : Int) ^ 11 * (-8388608) ≤ -524288 * 32768 + 2 ^ 10 ∧
      (-524288 : Int) * 32768 + 2 ^ 10 < 2 ^ 11 * (-8388608 + 1)) ∧
    ({ idleChan with phantom := .rampUp, ramp := 14400 } : Chan).rampMute = true := by decide +kernel

/-! ### Lanes and the line -/

theorem witness_BadFrameFaultsLane : State.reset.lanes[(0 : LaneId)].judged = false ∧
    State.reset.lanes[(0 : LaneId)].fault = true := by decide +kernel

theorem witness_GoodFrameRecoversLane :
    let at15 : State := { State.reset with lanes := Vector.replicate 8 { fault := true, run := 15, judged := false } }
    let sync : State := { State.reset with lanes := Vector.replicate 8 { fault := false, run := 0, judged := false } }
    State.reset.lanes[(0 : LaneId)].run + 1 < 16 ∧ State.reset.lanes[(0 : LaneId)].fault = true ∧
      at15.lanes[(0 : LaneId)].run + 1 = 16 ∧ at15.lanes[(0 : LaneId)].judged = false ∧
      sync.lanes[(0 : LaneId)].fault = false ∧ sync.lanes[(0 : LaneId)].judged = false := by decide +kernel

theorem witness_StepCharactersCarryState : ({ analog := 240, padIn := true } : Setting).legal := by decide

/-- Channel 5 has a given record, and nothing else asks. -/
def asking (ch : Chan) : State := calm.setChan 5 ch

/-- Channel 5 asks, with and without the urgent mark, or for a phantom change; nobody asks; and channels 5 and 9 ask, of whom
all are considered, only the named one, or all since the named one does not ask. -/
theorem witness_DecisionIsFair : (asking { idleChan with op := .lineWait }).choose (some 5) = some (5, false, true) ∧
    (asking { idleChan with op := .lineWait, urgent := true }).choose (some 5) = some (5, true, false) ∧
    (asking { idleChan with phantomTgt := true }).choose (some 5) = some (5, false, true) ∧
    (asking idleChan).choose (some 5) = none ∧
    (let s (together : Bool) : State := { (asking { idleChan with op := .lineWait }).setChan 9 { idleChan with op := .lineWait } with
        arb := { calm.arb with together := together } }
     (s true).choose (some 9) = some (5, false, true) ∧ (s false).choose (some 9) = some (9, false, true) ∧
       (s false).choose (some 8) = some (5, false, true)) := by decide +kernel

/-- Each form of a channel's transaction: a pad step, a step up, a step down, and a phantom change from each state; and a
board's readback. -/
theorem witness_GrantStartsTransaction :
    (∀ ch ∈ ([{ idleChan with op := .lineWait, tgt := ⟨0, true⟩ }, { idleChan with op := .lineWait, tgt := ⟨6, false⟩ },
        { idleChan with op := .lineWait, ack := ⟨6, false⟩ }, { idleChan with phantomTgt := true },
        { idleChan with op := .zcWait, phantomTgt := true }, { idleChan with op := .settling, phantomTgt := true }] :
        List Chan),
      (asking ch).line = none ∧ (asking ch).choose (some 5) = some (5, false, true)) ∧
    requesterOf 5 = .inl 5 ∧ State.reset.choose (some 64) = some (64, false, true) ∧ requesterOf 64 = .inr 0 := by
  decide +kernel

/-- A STEP of channel 5 in flight, one character received. -/
def midStep : State :=
  { calm.setChan 5 { idleChan with
      op := .ackWait, carried := .up, tgt := ⟨6, false⟩, lastSent := some ⟨⟨⟨6, false⟩, false⟩, false⟩ } with
    line := some ⟨.step 5 ⟨⟨6, false⟩, false⟩, 0, [5#8], none, 3⟩ }

/-- The first character of a STEP's answer and the second and third of a READBACK's, with sound characters that fit or fail
the echo, the position and the address bit, one with an even number of 1 bits too many, and one after an error. -/
theorem witness_AnswerCharacterIsCounted : calm.line = none ∧
    (InFlight.mk (.step 5 ⟨⟨6, false⟩, false⟩) 0 [] none 3).data.length + 1 <
      (TxKind.step 5 ⟨⟨6, false⟩, false⟩).expected ∧ (5 : ChanId).val % 8 = 5 ∧
    (∀ d ∈ [[0#8], [0#8, 40#8]], ∀ e ∈ [none, some LineError.check],
      (InFlight.mk .readback 0 d e 3).data.length + 1 < TxKind.readback.expected) ∧
    (2 : Nat) / 2 = 1 ∧ (5#8).toNat % 8 = 5 ∧ (6#8).toNat % 8 ≠ 5 ∧ (40#8).toNat % 64 ≤ 40 ∧ 40 < (41#8).toNat % 64 ∧
    (∀ ch ∈ [sound 5#8, sound 6#8, sound 40#8, sound 41#8, sendChar 5#8 true], ch.stop = true ∧
      ((List.range 8).countP (fun i => ch.data.getLsbD i) + ch.address.toNat + ch.check.toNat) % 2 = 0) ∧
    (let ch : LineChar := ⟨5#8, false, true, true⟩
     ((List.range 8).countP (fun i => ch.data.getLsbD i) + ch.address.toNat + ch.check.toNat) % 2 = 1) := by decide +kernel

/-- A STEP of channel 5 in flight from a record, its first answer character received. -/
def answered (ch : Chan) (first : Byte) : State :=
  { calm.setChan 5 ch with line := some ⟨.step 5 ⟨⟨6, false⟩, false⟩, 0, [first], none, 3⟩ }

/-- A first character with the fault flag; answers that change the setting, the phantom, or neither; and the forms of the
record: a carried step, an entry that is pending, and a phantom change from each state. -/
theorem witness_GoodAnswerConfirmsStep :
    (∀ first ∈ [5#8, 0x25#8], ∀ ch ∈ ([{ idleChan with op := .ackWait, carried := .up, tgt := ⟨6, false⟩ },
        { idleChan with op := .ackWait, carried := .up, pend := [⟨⟨0, false⟩, 7#32⟩] },
        { idleChan with op := .ackWait, resume := .zcWait }, { idleChan with op := .ackWait, resume := .settling },
        { idleChan with op := .ackWait, tgt := ⟨6, false⟩ }, { idleChan with op := .ackWait, phantom := .faulted }] :
        List Chan),
      (answered ch first).line = some ⟨.step 5 ⟨⟨6, false⟩, false⟩, 0, [first], none, 3⟩ ∧
      ∀ e ∈ [0#8, 1#8], charError (.step 5 ⟨⟨6, false⟩, false⟩) 1 (sound e) = none) ∧
    pairFault 0x25#8 = true ∧ pairFault 5#8 = false ∧ pairState 5#8 1#8 = ⟨⟨6, false⟩, false⟩ ∧
    pairState 5#8 0#8 = ⟨⟨0, false⟩, false⟩ ∧ idleChan.ack = ⟨0, false⟩ ∧ (pairState 0x15#8 0#8).phantom ≠ idleChan.ackPhantom ∧
    charError (.step 5 ⟨⟨6, false⟩, false⟩) 0 (sound 0x15#8) = none ∧
    (pairState 5#8 0#8).phantom = idleChan.ackPhantom ∧
    ({ idleChan with op := .ackWait, resume := .zcWait } : Chan).tgt = idleChan.ack := by
  decide +kernel

/-- The first fifteen characters of board 0's answer: every channel at position 0, but for one first character of channel
5. -/
def readData (first : Byte) : List Byte :=
  [0#8, 0#8, 1#8, 0#8, 2#8, 0#8, 3#8, 0#8, 4#8, 0#8, first, 0#8, 6#8, 0#8, 7#8]

/-- A READBACK of board 0 in flight, one character short, channel 5 in a given record. -/
def reading (ch : Chan) (first : Byte) : State :=
  { calm.setChan 5 ch with line := some ⟨.readback, 0, readData first, none, 3⟩ }

/-- Channel 5 agrees, with and without a fault; it is SUSPECT, disagrees in its setting in each state, with its target at the
read setting and not, and in its phantom; it is in its start-up, with targets set and not. -/
theorem witness_ReadbackSettlesChannel :
    (∀ first ∈ [5#8, 0x25#8, 0x15#8],
      ∀ ch ∈ ([idleChan, { idleChan with op := .suspect, lastSent := some ⟨⟨⟨0, false⟩, false⟩, true⟩ },
        { idleChan with op := .idle, ack := ⟨6, false⟩ }, { idleChan with op := .idle, tgt := ⟨6, false⟩, ack := ⟨6, false⟩ },
        { idleChan with op := .zcWait, ack := ⟨6, false⟩ }, { idleChan with op := .lineWait, ack := ⟨6, false⟩ },
        { idleChan with op := .lineWait, ack := ⟨6, false⟩, tgt := ⟨12, false⟩ },
        { idleChan with op := .settling, ack := ⟨6, false⟩ }, { idleChan with op := .ackWait, ack := ⟨6, false⟩ },
        resetChan, { resetChan with tgtSet := true, phantomTgtSet := true, tgt := ⟨6, false⟩ }] : List Chan),
      (reading ch first).line = some ⟨.readback, 0, readData first, none, 3⟩ ∧ (readData first).length = 15 ∧
      charError .readback 15 (sound 0#8) = none ∧
      pairState ((readData first ++ [0#8]).getD 10 0#8) ((readData first ++ [0#8]).getD 11 0#8) =
        ⟨⟨0, false⟩, first == 0x15#8⟩ ∧
      pairFault ((readData first ++ [0#8]).getD 10 0#8) = (first == 0x25#8)) ∧
    (5 : ChanId).val = 8 * (0 : BoardId).val + (5 : Fin 8).val ∧ (8 : ChanId).val / 8 ≠ (0 : BoardId).val ∧
    idleChan.startup = false ∧ resetChan.startup = true ∧ idleChan.ack = ⟨0, false⟩ ∧ (⟨6, false⟩ : Setting) ≠ ⟨0, false⟩ ∧
    (({ (reading idleChan 5#8) with boards := upd calm.boards 0 { resetBoard with offline := true } } : State).board 0).offline =
      true := by decide +kernel

/-- The window of a transaction has run out on a board with some failures. -/
def expired (kind : TxKind) (failures : Nat) : State :=
  { calm.setBoard 0 ⟨false, failures, .idle, 0⟩ with line := some ⟨kind, 0, [], none, 96⟩ }

/-- A transaction whose last character is awaited, with the earliest error, on a board with some failures; channel 5 holds a
cancel note or none. -/
def lastChar (kind : TxKind) (e : Option LineError) (failures : Nat) (note : Option CancelNote) : State :=
  { (calm.setBoard 0 ⟨false, failures, .idle, 0⟩).setChan 5 { idleChan with op := .ackWait, carried := .up, opened := true, note := note } with
    line := some ⟨kind, 0, List.replicate (kind.expected - 1) 0#8, e, 3⟩ }

/-- A cancel note, as a RELEASE leaves it. -/
def heldNote : CancelNote := { tag := none, target := ⟨6, false⟩, superseded := 0, cause := .release }

/-- A STEP of channel 5, and a READBACK. -/
def bothKinds : List TxKind := [.step 5 ⟨⟨6, false⟩, false⟩, .readback]

/-- A last character that is faulty itself, and one after an earlier error. -/
theorem lastChar_fails (failures : Nat) : ∀ k ∈ bothKinds, ∀ note ∈ [none, some heldNote],
    (∀ p ∈ [(none, LineError.check), (some .framing, .framing)], let t := InFlight.mk k 0 (List.replicate (k.expected - 1) 0#8) p.1 3
      (lastChar k p.1 failures note).line = some t ∧ t.data.length + 1 = k.expected ∧
      (t.firstError = some p.2 ∨ (t.firstError = none ∧ charError k t.data.length (sound 63#8) = some p.2))) := by
  intro k hk note _ p hp
  refine ⟨rfl, ?_⟩
  revert k p
  decide +kernel

/-- The window's expiry on either kind, with no faulty character, with a cancel note and a readback request or none; and the
last character of either kind. -/
theorem witness_WindowExpiryFailsStep : boardOf 5 = 0 ∧
    (∀ k ∈ bothKinds, (expired k 1).line = some ⟨k, 0, [], none, 96⟩ ∧ ((expired k 1).board 0).failures < 2) ∧
    (∀ k ∈ bothKinds, let s := (expired k 1).setBoard 0 ⟨true, 3, .idle, 0⟩
      s.line = some ⟨k, 0, [], none, 96⟩ ∧ (s.board 0).offline = true ∧ (3 : Nat) = min 3 ((s.board 0).failures + 1)) ∧
    ((expired (.step 5 ⟨⟨6, false⟩, false⟩) 1).chan 5).note = none ∧
    ((expired .readback 1).board 0).request = .idle ∧
    (((expired .readback 1).setBoard 0 ⟨false, 1, .asking, 0⟩).board 0).request = .asking ∧
    (∀ k ∈ bothKinds, ∀ e ∈ [none, some LineError.framing], ∀ note ∈ [none, some heldNote],
      ((lastChar k e 1 note).board 0).failures < 2 ∧ ((lastChar k e 1 note).chan 5).note = note) ∧
    ∀ k ∈ bothKinds, (lastChar k none 1 none).line = some ⟨k, 0, List.replicate (k.expected - 1) 0#8, none, 3⟩ :=
  ⟨by decide, by decide +kernel, by decide +kernel, by decide +kernel, by decide +kernel, by decide +kernel,
    by decide +kernel, fun k hk => (lastChar_fails 1 k hk none (by decide) (none, .check) (by decide)).1⟩

theorem witness_ThirdFailureTakesBoardOffline :
    (∀ k ∈ bothKinds, (expired k 2).line = some ⟨k, 0, [], none, 96⟩ ∧ ((expired k 2).board 0).offline = false ∧
      ((expired k 2).board 0).failures = 2 ∧ ((expired k 2).board 0).request = .idle) ∧
    boardOf 5 = 0 ∧ boardOf 8 ≠ 0 ∧
    ∀ k ∈ bothKinds, ∀ e ∈ [none, some LineError.framing], ∀ note ∈ [none, some heldNote],
      ((lastChar k e 2 note).board 0).offline = false ∧ ((lastChar k e 2 note).board 0).failures = 2 ∧
      ((lastChar k e 2 note).chan 5).note = note := by decide +kernel

/-! ### Gain operations -/

theorem witness_ForcedStepAndRampEnd :
    ((calm.setChan 3 { idleChan with op := .zcWait, window := 0 }).chan 3).op = .zcWait ∧
    ((calm.setChan 3 { idleChan with op := .zcWait, window := 0 }).chan 3).window = 0 ∧
    ((calm.setChan 3 { idleChan with phantom := .rampDown }).chan 3).phantom = .rampDown ∧
    ((calm.setChan 3 { idleChan with phantom := .rampDown }).chan 3).ramp = 0 := by decide +kernel

/-- The last pending application, due in the running period, of channel 3. -/
def applying (op : OpState) (tgt : Setting) : State :=
  calm.setChan 3 { idleChan with op := op, ack := ⟨6, false⟩, tgt := tgt, opened := true, pend := [⟨⟨6, false⟩, 0#32⟩] }

/-- IDLE, settled at the target, short of it, and at the target under a cancel note and not open. -/
theorem witness_ApplicationPutsLevelInForce :
    (∀ s ∈ [applying .idle ⟨6, false⟩, applying .settling ⟨6, false⟩, applying .settling ⟨12, false⟩],
      (s.chan 3).pend = [⟨⟨6, false⟩, 0#32⟩] ∧ s.frame = 0#32) ∧
    ((applying .settling ⟨6, false⟩).chan 3).note = none ∧ ((applying .settling ⟨6, false⟩).chan 3).opened = true ∧
    (∀ ch ∈ [{ (applying .settling ⟨6, false⟩).chan 3 with note := some heldNote }, { (applying .settling ⟨6, false⟩).chan 3 with opened := false }],
      let s := calm.setChan 3 ch
      (s.chan 3).op = .settling ∧ (s.chan 3).pend = [⟨⟨6, false⟩, 0#32⟩] ∧ (s.chan 3).tgt = (s.chan 3).ack) := by
  decide +kernel

/-- A crosspoint that is settled, has entered TRACK, or has folded, where the applied level moves from 0 to 6. -/
theorem witness_ApplicationMeetsCrosspoints :
    ((applying .idle ⟨6, false⟩).chan 3).level ≠ (⟨6, false⟩ : Setting).level ∧ resetXp.continuity = .settled ∧
    outOfRange (({ resetXp with mode := .track 102 } : Xp).raw 0) ≠ outOfRange (({ resetXp with mode := .track 102 } : Xp).raw 6) ∧
    ({ resetXp with mode := .track 0, continuity := .entered } : Xp).continuity = .entered ∧
    ({ resetXp with continuity := .folded 6 0 } : Xp).continuity = .folded 6 0 := by decide

/-- A target equal to the acknowledged setting and one that is not; and a record of each form: each state, open and not, with a
cancel note and without, ACK_WAIT with a step carried and with none in each resume state. -/
theorem witness_RetargetByState : (⟨6, false⟩ : Setting) ≠ idleChan.ack ∧ (⟨0, false⟩ : Setting) = idleChan.ack ∧
    idleChan.op = .idle ∧ idleChan.note = none ∧ ({ idleChan with note := some heldNote } : Chan).note ≠ none ∧
    (∀ op ∈ [OpState.zcWait, .lineWait, .settling, .suspect], ∀ opened ∈ [true, false],
      ({ idleChan with op := op, opened := opened } : Chan).op = op ∧
        ({ idleChan with op := op, opened := opened } : Chan).opened = opened) ∧
    ({ idleChan with op := .ackWait, carried := .pad } : Chan).carried ≠ .nothing ∧
    (∀ resume ∈ [ResumeState.idle, .zcWait, .settling],
      ({ idleChan with op := .ackWait, resume := resume } : Chan).carried = .nothing ∧
        ({ idleChan with op := .ackWait, resume := resume } : Chan).resume = resume) := by decide

/-- Not open and IDLE; a wait; a commanded step, its sent state recorded or not; and ACK_WAIT with no step carried in each resume
state. -/
theorem witness_OwnerChangeCancels : idleChan.opened = false ∧
    ({ idleChan with op := .lineWait, opened := true } : Chan).opened = true ∧
    (midStep.chan 5).lastSent = some ⟨⟨⟨6, false⟩, false⟩, false⟩ ∧ (midStep.chan 5).op = .ackWait ∧
    (midStep.chan 5).carried ≠ .nothing ∧ idleChan.op = .idle ∧ idleChan.lastSent = none ∧
    (∀ resume ∈ [ResumeState.idle, .zcWait, .settling],
      let ch : Chan := { idleChan with op := .ackWait, resume := resume, opened := true }
      ch.opened = true ∧ ch.carried = .nothing ∧ ch.resume = resume) := by decide +kernel

/-! ### Boundaries -/

theorem witness_BoundaryLowersCountdowns : State.reset.owed.contains .preampLine = true ∧
    State.reset.owed.contains .exchange = true ∧ calm.owed.contains .clock = false := by decide

/-- A return word whose check byte fits, and one whose does not. -/
def fitWord : ReturnWord := ⟨1#8, 7#8, 0x80#8, 0xE2#8⟩
def unfitWord : ReturnWord := ⟨1#8, 7#8, 0#8, 0#8⟩

/-- An enabled port in each state, judging and not; a word that is absent, bad, next in sequence and out of it; the counts one
short and at what moves the link; three errors in the window; and a listening flag that changes. -/
theorem witness_VerdictMovesLink : State.reset.owed.contains .feedPorts = true ∧
    (∀ st ∈ [LinkState.seeking, .down, .up, .degraded], st ≠ .off) ∧ resetPort.state = .off ∧ resetPort.judging = false ∧
    fitWord.check = fitWord.id + fitWord.seq + fitWord.third + 0x5A#8 ∧
    unfitWord.check ≠ unfitWord.id + unfitWord.seq + unfitWord.third + 0x5A#8 ∧
    fitWord.seq = 6#8 + 1#8 ∧ fitWord.seq ≠ 7#8 + 1#8 ∧
    (let p : PortRec := { resetPort with
      state := .degraded, judging := true, word := some fitWord, lastSeq := some 6#8, validRun := 15, invalidRun := 7
      cleanRun := 63, window := [true, true, true], latest := some ⟨1#8, 0#8⟩ }
     15 ≤ p.validRun ∧ 7 ≤ p.invalidRun ∧ 63 ≤ p.cleanRun ∧ 4 ≤ (p.window ++ [true]).countP id ∧
       (p.window ++ [false]).countP id < 4 ∧ (⟨1#8, 0#8⟩ : LatestWord).third.getLsbD 7 ≠ fitWord.third.getLsbD 7) := by decide

theorem witness_BoundaryMergesBlocks : State.reset.owed.contains .meterGuard = true ∧ (State.reset.guard 3).enable = false ∧
    (State.reset.chan 3).startup = true := by decide +kernel

/-- A guard with its count and rest, on an idle channel at 150. -/
def guarded (floor count rest : Nat) : State :=
  { (calm.setChan 30 { idleChan with ack := ⟨150, false⟩, app := ⟨150, false⟩, tgt := ⟨150, false⟩ }).setGuard 30
      { resetGuard with enable := true, threshold := 30000, floor := floor, overCount := count, restLeft := rest } with
    owed := [.meterGuard]
    blocks := upd calm.blocks 30 { resetBlock with peak := 32767 * 256 } }

/-- A guard that acts above its floor, one whose next step is below it, one whose hold is not met, one that rests; one over a
block below its threshold; and one that is off. -/
theorem witness_GuardLowersTarget :
    (∀ s ∈ [guarded 144 3 1, guarded 150 3 1, guarded 144 2 1, guarded 144 3 2], s.owed.contains .meterGuard = true ∧
      (s.guard 30).enable = true ∧ (s.chan 30).startup = false ∧ (s.guard 30).threshold ≤ (s.blocks[30]).peak / 256 ∧
      (s.chan 30).op = .idle ∧ 1 ≤ (s.guard 30).hold) ∧
    (State.reset.blocks[0]).peak / 256 < resetGuard.threshold ∧ resetGuard.enable = false ∧
    (∀ s ∈ [guarded 144 3 1, guarded 150 3 1], (s.guard 30).hold ≤ min 32 ((s.guard 30).overCount + 1) ∧
      (s.guard 30).restLeft ≤ 1) ∧
    min 32 (((guarded 144 2 1).guard 30).overCount + 1) < ((guarded 144 2 1).guard 30).hold ∧
    1 < ((guarded 144 3 2).guard 30).restLeft ∧
    (((guarded 144 3 1).guard 30).floor : Int) ≤ ((guarded 144 3 1).chan 30).app.analog - 6 ∧
    ((guarded 150 3 1).chan 30).app.analog - 6 < (((guarded 150 3 1).guard 30).floor : Int) ∧
    (144 : Int) < ((guarded 144 3 1).chan 30).tgt.analog ∧
    ({ ((guarded 144 3 1).chan 30).tgt with analog := 144 } : Setting) ≠ ((guarded 144 3 1).chan 30).ack := by
  decide +kernel

/-- The clock on C1 with its port UP, in a lock state and with its runs. -/
def onC1 (lock : LockState) (inRun outRun : Nat) : State :=
  { State.reset with
    clock := { resetClock with preferred := .portC, ref := .c1, lock := lock, inRun := inRun, outRun := outRun, armed := true }
    ports := { perPort resetPort with c1 := { resetPort with state := .up, timing := true } } }

/-- A HOLDOVER clock with a preferred source, a kept reference and a form. -/
def heldClock (k : ClockSource) (r : ClockRef) (form : HoldForm) : Clock :=
  { resetClock with preferred := k, ref := r, lock := .holdover, form := form, retry := 4 }

/-- A locked clock and an acquiring one short of, and at, what moves the lock; a reference just taken; INTERNAL; C1 unfit with
C2 fit and with none; C2 unfit; EXTERNAL without an edge; a block without timing; and each form of HOLDOVER, its search
finding C1, C2, EXTERNAL and nothing. -/
theorem witness_ClockJudgesReference :
    (∀ s ∈ [onC1 .locked 0 2, onC1 .locked 0 3, onC1 .acquiring 62 0, onC1 .acquiring 63 0], s.owed.contains .clock = true ∧
      s.clock.ref = .c1 ∧ (s.port .c1).state = .up ∧ (s.port .c1).timing = true ∧ s.clock.armed = true) ∧
    (onC1 .acquiring 63 0).clock.inRun = 63 ∧ (onC1 .locked 0 3).clock.outRun = 3 ∧
    State.reset.clock.ref = .internal ∧ State.reset.clock.lock = .locked ∧ State.reset.owed.contains .clock = true ∧
    ({ (onC1 .locked 0 0).clock with armed := false } : Clock).armed = false ∧
    (∀ s ∈ [({ onC1 .locked 0 0 with ports := { perPort resetPort with
          c1 := { resetPort with state := .down }, c2 := { resetPort with state := .up } } } : State),
        { onC1 .locked 0 0 with ports := perPort resetPort }],
      s.owed.contains .clock = true ∧ s.clock.ref = .c1 ∧ (s.port .c1).state ≠ .up ∧ (s.port .c1).state ≠ .degraded) ∧
    (State.reset.port .c2).state = .off ∧ State.reset.clock.edge = false ∧
    ({ onC1 .locked 0 0 with ports := { perPort resetPort with c1 := { resetPort with state := .up } } } : State).ports.c1.timing =
      false ∧
    (heldClock .portC .c1 .resume).form = .resume ∧ (heldClock .portC .c1 .rest).form = .rest ∧
    (∀ k ∈ [ClockSource.portC, .external], (heldClock k .nothing .wait).form = .wait ∧
      (heldClock k .nothing .wait).lock = .holdover ∧ (heldClock k .nothing .wait).preferred = k) := by decide

theorem witness_TimersExpire : ((calm.setBoard 2 ⟨false, 1, .deferred, 0⟩).board 2).request = .deferred ∧
    ((calm.setBoard 2 ⟨false, 1, .deferred, 0⟩).board 2).countdown = 0 ∧
    500 ≤ ({ resetClock with lock := .acquiring, acq := 500 } : Clock).acq ∧
    ({ resetClock with lock := .holdover, form := .rest, retry := 0 } : Clock).form = .rest := by decide +kernel

/-- A snapshot held, none held with the exchange off, a full store, a queue or a loss before it, and none held with a free
block. -/
theorem witness_CloseTakesSnapshot :
    let at0 (x : Exchange) : State := { calm with ex := { x with meterCountdown := 0 } }
    let on : Exchange := { resetExchange with enable := true }
    (∀ x ∈ [resetExchange, on, { on with held := some calm.snapshot }, { on with filled := 64 }, { on with lost := 1 },
        { on with queue := [⟨0#32, .input 0 true⟩] }], (at0 x).ex.meterCountdown = 0) ∧
    (at0 { on with held := some calm.snapshot }).ex.held = some calm.snapshot ∧ resetExchange.enable = false ∧
    ({ on with filled := 64 } : Exchange).count ≤ ({ on with filled := 64 } : Exchange).filled ∧
    on.held = none ∧ on.lost = 0 ∧ on.queue = [] ∧ on.enable = true ∧ on.filled < on.count ∧ Memory.wf on.mem := by
  decide +kernel

theorem witness_SwapExchangesBanks :
    let s : State := { State.reset with scenes := { resetScenes with mask := 3#64, loaded := 1#64 } }
    s.owed.contains .sceneStore = true ∧ s.scenes.mask ≠ 0#64 ∧
      (s.scenes.mask.getLsbD 0 && s.scenes.loaded.getLsbD 0) = true ∧
      (s.scenes.mask.getLsbD 1 && s.scenes.loaded.getLsbD 1) = false := by decide

theorem witness_ArrivalsAreRecorded : (calm.port .a).state = .off ∧
    ((calm.setPort .a { resetPort with state := .up, judging := true }).port .a).judging = true ∧
    ((calm.setPort .a { resetPort with state := .up, judging := true }).port .a).word = none ∧
    ((calm.setPort .a { resetPort with state := .seeking }).port .a).judging = false := by decide

/-! ### The exchange -/

theorem witness_TriggersAndControl : calm.ex.enable = false ∧ ready.ex.enable = true ∧ ready.ex.walking = true ∧
    ({ ready.ex with walking := false } : Exchange).walking = false ∧ 0 < ready.ex.pollInterval ∧
    ready.ex.pollCountdown = 0 ∧ ({ ready.ex with pollCountdown := 3 } : Exchange).pollCountdown ≠ 0 ∧ (3#2 : BitVec 2) ≠ calm.ex.blocksCode := by decide

/-- The exchange of `ready` with a next field at the anchor, and bytes of the record it names. -/
def linked (next : Nat) (rest : List Host.Cell) : Exchange := { ready.ex with mem := (0x48, u8 next) :: rest }

theorem witness_WalkTakesOrStops : calm.ex.walking = false ∧ ready.ex.inHand = none ∧
    (readWord ready.ex.mem 0x48).toNat = 0 ∧ (readWord (linked 0x88 []).mem 0x48).toNat % 64 ≠ 0 ∧
    readByte (linked 0x80 []).mem 0x80 ≠ 1#8 ∧ (readWord (linked 0x80 []).mem 0x48).toNat = 0x80 ∧
    (let x := linked 0x80 [(0x80, 1#8), (0x81, 4#8), (0x82, 5#8), (0x86, 7#8)]
     readByte x.mem 0x80 = 1#8 ∧ readByte x.mem 0x81 = 4#8 ∧ decodeChannel (readByte x.mem 0x86) = some 7 ∧
      decodeSource (readByte x.mem 0x82) = some .panel ∧ x.enable = true ∧ x.clearAsked = false ∧ Memory.wf x.mem) ∧
    0x20000 ≤ (0x20000, 0#8).1 ∧
    (∀ w ∈ ([(0x3F, 1#8), (0x40, 1#8), (0x48, 2#8), (0x48, 3#8), (0xFFFF, 4#8), (0x10000, 5#8), (0x1FFFF, 6#8)] : List Host.Cell),
      w.1 < 0x20000) ∧ Memory.wf ready.ex.mem := by decide

/-- The last clause of WalkTakesOrStops: a state ready for a record, of any kind. -/
theorem witness_WalkTakesOrStops_kinds : ready.Ready (hd 5 0) :=
  ⟨by decide +kernel, by simp [hd, ReqHead.wf, goodOffset], rfl, rfl, ready_law.2⟩

/-- A CLAIM in hand, with the fold it made, its reply waiting for the sample or ready to be written. -/
def holding (fold : Option (Int × Int)) (ready : Option (Result × List Byte)) : State :=
  { calm with ex := { resetExchange with
      enable := true, walking := true, pollCountdown := 5
      inHand := some ⟨takeHead (hd 5 0) 10#8, .ok, { plainReply 7 .a with fold := fold }, ready⟩ } }

/-- A record that no fold touched, one whose fold stays in range, and one whose fold is clamped. -/
theorem witness_ReplyFollowsFirstSample :
    (∀ fold ∈ [none, some (20, 70), some (20, 180)], (holding fold none).calmBefore = true ∧
      (∀ g : LaneId, (holding fold none).lanes[g].judged = true) ∧
      (holding fold none).ex.inHand = some ⟨takeHead (hd 5 0) 10#8, .ok, { plainReply 7 .a with fold := fold }, none⟩) ∧
    20 + 70 - ((holding none none).chan 7).level ≤ 96 ∧ 96 < 20 + 180 - ((holding none none).chan 7).level ∧
    (holding none (some (.ok, [1#8]))).ex.inHand =
      some ⟨takeHead (hd 5 0) 10#8, .ok, plainReply 7 .a, some (.ok, [1#8])⟩ ∧
    [1#8].length ≤ 32 ∧ (holding none none).ex.clearAsked = false ∧ Memory.wf (holding none none).ex.mem := by decide +kernel

theorem witness_ReleaseGivesBack : (0x100#32).toNat % 256 = 0 ∧ calm.ex.oldest < calm.ex.count ∧
    3 ≤ ({ calm.ex with filled := 3 } : Exchange).filled ∧ ({ calm.ex with filled := 3 } : Exchange).filled < 4 := by decide

/-- Nothing in hand; a record in hand; and one whose reply is ready while a clear waits for it. -/
theorem witness_ClearEmptiesExchange : ready.ex.inHand = none ∧ (holding none none).ex.inHand.isSome = true ∧
    (let x : Exchange := { (holding none (some (.ok, [1#8]))).ex with clearAsked := true }
     x.inHand = some ⟨takeHead (hd 5 0) 10#8, .ok, plainReply 7 .a, some (.ok, [1#8])⟩ ∧ x.clearAsked = true ∧
      [1#8].length ≤ 32 ∧ Memory.wf x.mem) := by decide

/-- The exchange off, and on with nothing to write, with lost events, with a queue and with a held snapshot. -/
theorem witness_ReportWriteOrder : calm.ex.enable = false ∧ ready.ex.enable = true ∧ ready.ex.filled < ready.ex.count ∧
    Memory.wf ready.ex.mem ∧ ready.ex.lost = 0 ∧ ready.ex.queue = [] ∧ ready.ex.held = none ∧
    0 < ({ ready.ex with lost := 2 } : Exchange).lost ∧
    ({ ready.ex with queue := [⟨0#32, .input 0 true⟩] } : Exchange).queue = [⟨0#32, .input 0 true⟩] ∧
    ({ ready.ex with held := some calm.snapshot } : Exchange).held = some calm.snapshot := by decide

theorem witness_EventJoinsOrIsLost : calm.ex.queue.length < 32 ∧
    32 ≤ ({ calm.ex with queue := List.replicate 32 ⟨0#32, .input 0 true⟩ } : Exchange).queue.length := by decide

/-! ### The requests -/

/-- `ready` with other audio state is ready for a record with any head at 0x00080. -/
theorem ready_for {s : State} (h : s.ex = ready.ex) (source feed : Byte) : s.Ready (hd source feed) := by
  unfold State.Ready
  rw [h]
  exact ⟨by decide +kernel, by simp [hd, ReqHead.wf, goodOffset], rfl, rfl, ready_law.2⟩

theorem witness_CommonChecksRefuse : ready.Ready (hd 0 0) ∧ ready.Ready (hd 6 4) ∧ ready.Ready (hd 2 0) ∧
    decodeChannel (hd 0 0).channel = some 7 ∧ 64 ≤ (64#8).toNat ∧ (hd 6 4).feed.toNat = 4 ∧ 17 < (18#8).toNat ∧
    (hd 2 0).source.toNat ≠ (hd 2 0).feed.toNat + 1 :=
  ⟨ready_for rfl 0 0, ready_for rfl 6 4, ready_for rfl 2 0, by decide, by decide, by decide, by decide, by decide⟩

theorem witness_RequestsWaitOrStayInside : calm.ex.WalkLaw ∧ (hd 5 0).wf = true ∧ calm.ex.atTail = false :=
  ⟨⟨.inl rfl, (fun _ h => nomatch h), reset_mem_wf, (fun _ h => nomatch h)⟩, by decide, by decide +kernel⟩

/-- The owner and the panel on an unowned channel; codes at each end, between and above the grid. -/
theorem witness_AuthorisedRequestsRetarget : owned.Ready (hd 2 0) ∧ ready.Ready (hd 5 0) ∧
    decodeChannel (hd 2 0).channel = some 7 ∧ decodeSource (hd 2 0).source = some (.feed .b) ∧
    decodeSource (hd 5 0).source = some .panel ∧ (owned.chan 7).owner = some .b ∧ (ready.chan 7).owner = none ∧
    ∀ p ∈ [(0, 0), (3, 0), (4, 6), (151, 150), (240, 240), (241, 240), (65535, 240)],
      p.2 % 6 = 0 ∧ ((p.1 ≤ 240 ∧ p.2 ≤ p.1 + 2 ∧ p.1 ≤ p.2 + 3) ∨ (240 < p.1 ∧ p.2 = 240)) :=
  ⟨ready_for rfl 2 0, ready_for rfl 5 0, by decide, by decide, by decide, by decide +kernel, by decide +kernel, by decide⟩

/-- A changed trim, and one already at the clamp. -/
theorem witness_UnownedAnalogBecomesTrim : owned.Ready (hd 1 0) ∧ decodeChannel (hd 1 0).channel = some 7 ∧
    decodeSource (hd 1 0).source = some (.feed .a) ∧ (owned.chan 7).owner ≠ some .a ∧
    (12 : Int) = max (-240) (min 96 ((owned.xp 7 .a).trim + (12 - (owned.chan 7).tgt.analog))) ∧
    (12 : Int) ≠ (owned.xp 7 .a).trim ∧
    (0 : Int) = max (-240) (min 96 ((owned.xp 7 .a).trim + (0 - (owned.chan 7).tgt.analog))) :=
  ⟨ready_for rfl 1 0, by decide, by decide, by decide +kernel, by decide +kernel, by decide +kernel, by decide +kernel⟩

theorem witness_PreampRefusalsChangeNothing : owned.Ready (hd 5 0) ∧ owned.Ready (hd 1 0) ∧
    (owned.setChan 7 { idleChan with phantom := .faulted }).Ready (hd 5 0) ∧
    decodeSource (hd 5 0).source = some .panel ∧ decodeSource (hd 1 0).source = some (.feed .a) ∧
    (owned.chan 7).owner ≠ none ∧ (owned.chan 7).owner ≠ some .a ∧
    ((owned.setChan 7 { idleChan with phantom := .faulted }).chan 7).phantom = .faulted ∧ 1 < (2#8).toNat :=
  ⟨ready_for rfl 5 0, ready_for rfl 1 0, ready_for rfl 5 0, by decide, by decide, by decide +kernel, by decide +kernel,
    by decide +kernel, by decide⟩

/-- The board ONLINE with no request, and DEFERRED with a countdown that has run out or not. -/
theorem witness_PhantomReadAndResync : owned.Ready (hd 5 0) ∧ owned.Ready (hd 2 0) ∧
    decodeSource (hd 2 0).source = some (.feed .b) ∧ (owned.chan 7).owner = some .b ∧ (owned.chan 7).phantom ≠ .faulted ∧
    (∀ n, let s := owned.setBoard 0 ⟨false, 1, .deferred, n⟩
      s.Ready (hd 5 0) ∧ (s.board (boardOf 7)).request = .deferred ∧ (s.board (boardOf 7)).countdown = n) ∧
    calm.calmBefore = true ∧ ∃ t, exec .samplePeriod calm = .next t :=
  ⟨ready_for rfl 5 0, ready_for rfl 2 0, by decide, by decide +kernel, by decide +kernel,
    fun _ => ⟨ready_for rfl 5 0, rfl, rfl⟩, by decide +kernel, ⟨_, rfl⟩⟩

/-- A guard that is on is turned off, and one that is off is turned on. -/
theorem witness_SetGuardStoresRecord : ready.Ready (hd 5 0) ∧ decodeChannel (hd 5 0).channel = some 7 ∧
    decodeSource (hd 5 0).source = some .panel ∧ (ready.guard 7).enable = false ∧
    (ready.setGuard 7 { resetGuard with enable := true }).Ready (hd 5 0) ∧ 144 % 6 = 0 ∧ 144 ≤ 147 + 2 ∧ 147 ≤ 144 + 3 :=
  ⟨ready_for rfl 5 0, by decide, by decide, by decide +kernel, ready_for rfl 5 0, by decide, by decide, by decide⟩

/-- A trim that changes and one that does not; selectors that change, keep, and are refused. -/
theorem witness_SetTrimAndFlags : owned.Ready (hd 1 0) ∧ decodeFeed (hd 1 0).feed = some .a ∧
    decodeSource (hd 1 0).source = some (.feed .a) ∧ sourceAllows (.feed .a) .a = true ∧
    max (-240) (min 96 (97#16).toInt) ≠ (owned.xp 7 .a).trim ∧ max (-240) (min 96 (0#16).toInt) = (owned.xp 7 .a).trim ∧
    ({ owned.xp 7 .a with mute := true } : Xp) ≠ owned.xp 7 .a ∧ 2 < (3#8).toNat ∧
    (∀ m ∈ [XpMode.follow, .track 6, .owner], (owned.setXp 7 .c { resetXp with mode := m }).xp 7 .c = { resetXp with mode := m }) :=
  ⟨ready_for rfl 1 0, by decide, by decide, by decide, by decide +kernel, by decide +kernel, by decide +kernel, by decide,
    by decide +kernel⟩

/-- `owned` with feed C's crosspoint in TRACK: at a reference, and used by a sample or not. -/
def tracking (ref : Int) (k : Continuity) : State := owned.setXp 7 .c { resetXp with mode := .track ref, continuity := k }

/-- A crosspoint in each mode; a TRACK that no sample has used, and one whose fold is clamped and is not. -/
theorem witness_SetModeKeepsTheLevel : owned.Ready (hd 5 1) ∧ owned.Ready (hd 5 0) ∧ (owned.xp 7 .b).mode = .owner ∧
    (owned.xp 7 .a).mode = .follow ∧ (∀ ref k, (tracking ref k).Ready (hd 5 2)) ∧
    (∀ ref ∈ [6, 180], ∀ k ∈ [Continuity.entered, .settled], ((tracking ref k).xp 7 .c).mode = .track ref ∧
      ((tracking ref k).xp 7 .c).continuity = k) ∧ 96 < 0 + 180 - (owned.chan 7).level ∧
    decodeFeed (hd 5 1).feed = some .b ∧ decodeFeed (hd 5 0).feed = some .a ∧ decodeFeed (hd 5 2).feed = some .c ∧
    sourceAllows .panel .b = true :=
  ⟨ready_for rfl 5 1, ready_for rfl 5 0, by decide +kernel, by decide +kernel, fun _ _ => ready_for rfl 5 2, by decide +kernel,
    by decide +kernel, by decide, by decide, by decide, by decide⟩

/-- A feed that is off, a free channel, the owner, another feed without and with seniority; a claimant in FOLLOW, in a TRACK
that a sample has used, and in one that none has. -/
theorem witness_ClaimAndRelease : (∀ k, ({ tracking 180 k with senior := some .c } : State).Ready (hd 5 2)) ∧
    (∀ k ∈ [Continuity.entered, .settled], ((tracking 180 k).xp 7 .c).mode = .track 180 ∧
      ((tracking 180 k).xp 7 .c).continuity = k ∧ ((tracking 180 k).chan 7).owner = some .b ∧
      (tracking 180 k).feedOn.get .c = true) ∧
    96 < 0 + 180 - (owned.chan 7).level ∧ ({ owned with feedOn := perFeed false } : State).Ready (hd 5 0) ∧ ready.Ready (hd 5 0) ∧
    owned.Ready (hd 5 1) ∧ owned.Ready (hd 5 0) ∧ ({ owned with senior := some .a } : State).Ready (hd 5 0) ∧
    (ready.chan 7).owner = none ∧ ready.feedOn.get .a = true ∧ (owned.chan 7).owner = some .b ∧
    (owned.xp 7 .b).mode = .owner ∧ (owned.xp 7 .a).mode = .follow ∧ owned.senior ≠ some .a :=
  ⟨fun _ => ready_for rfl 5 2, by decide +kernel, by decide +kernel, ready_for rfl 5 0, ready_for rfl 5 0, ready_for rfl 5 1,
    ready_for rfl 5 0, ready_for rfl 5 0, by decide +kernel, by decide, by decide +kernel, by decide +kernel,
    by decide +kernel, by decide⟩

theorem lawful_of_reset {s : State} (hx : ∀ c f, s.xp c f = resetXp) (hc : ∀ c, s.chan c = resetChan) : s.OwnerLaw :=
  ⟨fun c f => by rw [hx, hc]; simp [resetXp, resetChan], fun c f => by rw [hc]; simp [resetChan]⟩

theorem owned_lawful : owned.OwnerLaw := by
  constructor <;> intro c f <;> revert c <;> cases f <;> decide +kernel

/-- A feed that is on and owns nothing, one that owns a channel, and one that is off. -/
theorem witness_SetFeedTurnsFeed : ready.Ready (hd 5 1) ∧ ready.OwnerLaw ∧ ready.feedOn.get .b = true ∧
    owned.Ready (hd 5 1) ∧ owned.OwnerLaw ∧ (owned.chan 7).owner = some .b ∧ owned.feedOn.get .b = true ∧
    ({ ready with feedOn := perFeed false } : State).OwnerLaw ∧ decodeFeed (hd 5 1).feed = some .b ∧
    decodeSource (hd 5 1).source = some .panel ∧ sourceAllows .panel .b = true ∧ 2 < (3#8).toNat :=
  ⟨ready_for rfl 5 1, lawful_of_reset poked_xp poked_chan, by decide, ready_for rfl 5 1, owned_lawful, by decide +kernel,
    by decide, lawful_of_reset poked_xp poked_chan, by decide, by decide, by decide, by decide⟩

/-- A map of zeros, one with a byte of 64, a pointer beyond the window, and the last offset that fits. -/
theorem witness_LoadSlotmapReplacesMap : ready.Ready (hd 5 0) ∧
    (∀ i : SlotId, (readByte (ready.ex.offer (hd 5 0) 13#8 (wordBytes 0x100#32)).mem (0x100 + i.val)).toNat = 0) ∧
    (let x := { ready.ex with mem := [(0x105, 64#8)] }
     64 ≤ (readByte (x.offer (hd 5 0) 13#8 (wordBytes 0x100#32)).mem 0x105).toNat) ∧
    ¬((0x10000#32).toNat + 64 ≤ 0x10000) ∧ (0xFFC0#32).toNat + 64 ≤ 0x10000 :=
  ⟨ready_for rfl 5 0, by decide +kernel, by decide +kernel, by decide, by decide⟩

/-- A run to the last channel, one beyond it, a pending swap, a table of zeros, and one with an invalid owner. -/
theorem witness_LoadShadowFillsRun : ready.Ready (hd 5 0) ∧ (60#8).toNat + (4#8).toNat ≤ 64 ∧
    64 < (60#8).toNat + (5#8).toNat ∧
    (∀ c : ChanId, 60 ≤ c.val → (readEntry (ready.ex.offer (hd 5 0) 14#8 (wordBytes 0x400#32 ++ [60#8, 4#8])).mem
      (0x400 + 16 * c.val)).invalid = false) ∧
    (let x := { ready.ex with mem := [(0x400 + 16 * 61 + 2, 5#8)] }
     (readEntry (x.offer (hd 5 0) 14#8 (wordBytes 0x400#32 ++ [60#8, 4#8])).mem (0x400 + 16 * 61)).invalid = true) ∧
    (4#64).getLsbD 2 = true ∧ (0xFC00#32).toNat + 1024 ≤ 0x10000 ∧ ¬((0xFC40#32).toNat + 1024 ≤ 0x10000) :=
  ⟨ready_for rfl 5 0, by decide, by decide, by decide +kernel, by decide +kernel, by decide, by decide, by decide⟩

theorem witness_SwapStoresMask : ready.Ready (hd 5 0) ∧ ready.scenes.mask = 0#64 ∧
    ({ ready with scenes := { resetScenes with mask := 2#64 } } : State).Ready (hd 5 0) ∧
    decodeSource (hd 5 0).source = some .panel :=
  ⟨ready_for rfl 5 0, by decide, ready_for rfl 5 0, by decide⟩

/-- Each choice: INTERNAL from INTERNAL, PORT_C with no port fit, the C1 in force and LOCKED, and a C1 that is not. -/
theorem witness_SetClockChoosesReference : ready.Ready (hd 5 0) ∧ (ready.port .c1).state = .off ∧ ready.clock.ref = .internal ∧
    ({ ready with clock := (onC1 .locked 0 0).clock, ports := (onC1 .locked 0 0).ports } : State).Ready (hd 5 0) ∧
    ((onC1 .locked 0 0).port .c1).state = .up ∧ (onC1 .locked 0 0).clock.lock = .locked ∧
    ({ ready with ports := (onC1 .locked 0 0).ports } : State).Ready (hd 5 0) ∧ 2 < (3#8).toNat ∧
    (∀ k ∈ [{ resetClock with lock := .acquiring, acq := 500 }, { resetClock with lock := .holdover, form := .rest }],
      ({ ready with clock := k } : State).Ready (hd 5 0)) ∧ resetClock.retry = 0 :=
  ⟨ready_for rfl 5 0, by decide, by decide, ready_for rfl 5 0, by decide, by decide, ready_for rfl 5 0, by decide,
    fun _ _ => ready_for rfl 5 0, by decide⟩

/-- `ready` with its meter and poll countdowns at given values. -/
def counting (meter poll : Nat) : State :=
  { ready with ex := { ready.ex with meterCountdown := meter, pollCountdown := poll } }

/-- Every setting chosen and none; the refused selector 16; countdowns that run, and ones that a boundary has run out. -/
theorem witness_SetExchangeStoresSettings : (∀ m ∈ [0, 50], ∀ p ∈ [0, 3], (counting m p).Ready (hd 5 0)) ∧
    decodeSource (hd 5 0).source = some .panel ∧ (15#8).toNat ≤ 15 ∧ (0#8).toNat ≤ 15 ∧ 15 < (16#8).toNat ∧
    (counting 50 3).ex.meterCountdown ≠ 0 ∧ (counting 50 3).ex.pollCountdown ≠ 0 :=
  ⟨fun _ _ _ _ => ready_for (s := ready) rfl 5 0, by decide, by decide, by decide, by decide, by decide, by decide⟩

end Sys2Proof.Tests
end

section
/-! PROOFS. The gain arithmetic of Chapter 1: the raw gain and the heard level (R6, R8), and the gains that are exact
(R20). -/

namespace Sys2Proof.Machine

/-! ### The raw gain and the heard level -/

/-- Outside TRACK the raw gain is the trim (R6). -/
theorem Xp.raw_of_not_track {x : Xp} (h : x.mode = .owner ∨ x.mode = .follow) (lapp : Int) : x.raw lapp = x.trim := by
  unfold Xp.raw; rcases h with h | h <;> rw [h]

/-- In TRACK the raw gain makes up for the applied level (R6). -/
theorem Xp.raw_of_track {x : Xp} {r : Int} (h : x.mode = .track r) (lapp : Int) :
    x.raw lapp = x.trim + r - lapp := by
  unfold Xp.raw; rw [h]

/-- A gain inside the range is left alone by the clamp. -/
theorem clampGain_of_legal {x : Int} (h : legalTrim x) : clampGain x = x := by
  obtain ⟨h1, h2⟩ := h; unfold clampGain; omega

/-- A raw gain is out of range exactly where it is no gain. -/
theorem outOfRange_eq_false {raw : Int} : outOfRange raw = false ↔ legalTrim raw := by
  simp [outOfRange, legalTrim]

/-- Settles O10: the raw gain is linear in the applied level, and the clamp is the identity inside its range. -/
theorem rawGainAndHeardLevel : Obligations.RawGainAndHeardLevel := by
  unfold Obligations.RawGainAndHeardLevel
  intro x lapp
  refine ⟨rfl, fun hm => ?_, fun r hm => ?_⟩
  · have hraw := Xp.raw_of_not_track hm lapp
    refine ⟨hraw, fun ht => ?_⟩
    rw [Xp.heard, Xp.gain, hraw, clampGain_of_legal ht]
    exact ⟨ht.1, ht.2, rfl⟩
  · have hraw := Xp.raw_of_track hm
    rw [Xp.heard, Xp.gain, hraw]
    refine ⟨rfl, fun n => ?_, fun ht hr hl => ?_, fun ho => ?_, by omega, fun ho => ?_, fun ho => ?_⟩
    · rw [hraw]; omega
    · omega
    · rw [clampGain_of_legal (outOfRange_eq_false.1 ho)]; omega
    · unfold clampGain; omega
    · unfold clampGain; omega

/-! ### Whole doublings -/

/-- A gain of whole doublings has no fraction: stage 1 gives the number of doublings and entry 0 of the table. -/
theorem stage_of_doublings (e : Int) : stageE (24 * e) = e ∧ stageK (24 * e) = 0 ∧ stageShift (24 * e) = (15 - e).toNat := by
  have he : stageE (24 * e) = e := by unfold stageE; omega
  exact ⟨he, by rw [stageK, he]; omega, by rw [stageShift, he]⟩

/-- The product of stage 2 at a gain of whole doublings, rounded and scaled by stage 3. -/
theorem stageScale_of_doublings (x e : Int) :
    stageScale x (24 * e) = (x * 2 ^ 15 + 2 ^ ((15 - e).toNat - 1)) / 2 ^ (15 - e).toNat := by
  obtain ⟨_, hk, hs⟩ := stage_of_doublings e
  rw [stageScale, hk, hs]; rfl

/-- Up to four doublings multiply exactly (R20). -/
theorem stageScale_boost (x : Int) {e : Nat} (he : e ≤ 4) : stageScale x (24 * e) = x * 2 ^ e := by
  rw [stageScale_of_doublings, show (15 - (e : Int)).toNat = 15 - e by omega]
  interval_cases e <;> norm_num <;> omega

/-- A cut of n doublings divides by 2 ^ n and rounds halves up (R20). -/
theorem stageScale_cut (x : Int) (n : Nat) : stageScale x (-(24 * n)) = (2 * x + 2 ^ n) / 2 ^ (n + 1) := by
  have h1 : (15 - -(n : Int)).toNat = 14 + (n + 1) := by omega
  have h2 : (15 - -(n : Int)).toNat - 1 = 14 + n := by omega
  rw [show -(24 * (n : Int)) = 24 * -(n : Int) by ring, stageScale_of_doublings, h2, h1, pow_add 2 14 n,
    pow_add 2 14 (n + 1), show x * 2 ^ 15 + 2 ^ 14 * 2 ^ n = (2 : Int) ^ 14 * (2 * x + 2 ^ n) by ring]
  exact Int.mul_ediv_mul_of_pos _ _ (by norm_num)

/-- A sample in the range passes stage 4 unchanged (R15). -/
theorem stageSaturate_of_range {y : Int} (h1 : minSample ≤ y) (h2 : y ≤ maxSample) : stageSaturate y = (y, false) := by
  rw [stageSaturate, if_neg (by omega), if_neg (by omega)]

/-- A sample above the range is clipped to the largest (R15). -/
theorem stageSaturate_above {y : Int} (h : maxSample < y) : stageSaturate y = (maxSample, true) := by
  rw [stageSaturate, if_pos h]

/-- A sample below the range is clipped to the smallest (R15). -/
theorem stageSaturate_below {y : Int} (h : y < minSample) : stageSaturate y = (minSample, true) := by
  rw [stageSaturate, if_neg (by unfold minSample maxSample at *; omega), if_pos h]

/-- Unity gain delivers the sample (R20). -/
theorem sampleOut_unity {x : Int} (h1 : minSample ≤ x) (h2 : x ≤ maxSample) : sampleOut x 0 false false = (x, false) := by
  have hx : stageScale x 0 = x := by simpa using stageScale_boost x (Nat.zero_le 4)
  simp [sampleOut, hx, stageSaturate_of_range h1 h2, stageInvert, stageMute]

/-- Settles O11: a gain of whole doublings uses entry 0 of the table, 2 ^ 15, which the shift takes back. -/
theorem unityGainIsTransparent : Obligations.UnityGainIsTransparent := by
  unfold Obligations.UnityGainIsTransparent
  intro x h1 h2
  refine ⟨rfl, rfl, rfl, by simpa using stageScale_boost x (Nat.zero_le 4), sampleOut_unity h1 h2, fun e he => ?_,
    fun n _ _ => stageScale_cut x n, fun y lapp hm ht hi => ?_⟩
  · rw [stageScale_boost x he]
    exact ⟨rfl, stageSaturate_of_range, stageSaturate_above, stageSaturate_below⟩
  · have hg : y.gain lapp = 0 := by rw [Xp.gain, Xp.raw_of_not_track (.inr hm), ht]; rfl
    rw [hg, hi]
    exact sampleOut_unity h1 h2

end Sys2Proof.Machine
end

section
/-! PROOFS. What the Meter and Guard Unit's work at a boundary can do to the state (R98, R107 to R109). -/

namespace Sys2Proof.Machine

@[simp] theorem upd_self {α : Type} {n : Nat} (v : Vector α n) (i : Fin n) : upd v i v[i.val] = v :=
  Vector.set_getElem_self _

/-- What a guard makes of a channel's record: it leaves the record, or sets a target one preamp step below the applied code,
but no higher than the target was. -/
def State.Guarded (s : State) (c : ChanId) (ch : Chan) : Prop :=
  ch = s.chan c ∨ (6 ≤ (s.chan c).app.analog ∧
    ch = ((s.chan c).guardTarget c
      { (s.chan c).tgt with analog := min (s.chan c).tgt.analog ((s.chan c).app.analog - 6) }).1)

/-- The guard's target moves no applied level. -/
theorem Chan.guardTarget_level (c : ChanId) (ch : Chan) (x : Setting) : (ch.guardTarget c x).1.level = ch.level :=
  Chan.level_of_settings (b := { ch with tgt := x }) (ch.guardTarget_settings c x)

/-- One preamp step taken off a channel touches its record, its guard, its interval record and the events alone: the applied
level stands, so that the crosspoints do. -/
theorem State.guardStep_frame (s : State) (c : ChanId) (code : Nat) :
    s.guardStep c code = { s with
      chans := upd s.chans c ((s.chan c).guardTarget c
        { (s.chan c).tgt with analog := min (s.chan c).tgt.analog ((s.chan c).app.analog - 6) }).1
      guards := (s.guardStep c code).guards
      intervals := (s.guardStep c code).intervals
      ex := (s.guardStep c code).ex } := by
  simp only [State.guardStep, State.putChan, State.setGuard, Chan.guardTarget_level, if_true]

theorem State.guardFloor_frame (s : State) (c : ChanId) (code : Nat) :
    s.guardFloor c code = { s with guards := (s.guardFloor c code).guards, ex := (s.guardFloor c code).ex } := by
  unfold State.guardFloor
  dsimp only
  split <;> rfl

/-- All that one channel's guard can do at a boundary. -/
theorem State.guardChan_cases (s : State) (c : ChanId) (code : Nat) : ∃ ch, s.Guarded c ch ∧
    s.guardChan c code = { s with
      chans := upd s.chans c ch, guards := (s.guardChan c code).guards, intervals := (s.guardChan c code).intervals
      ex := (s.guardChan c code).ex } := by
  have hleft : ∀ {t : State}, t = { s with guards := t.guards, ex := t.ex } → ∃ ch, s.Guarded c ch ∧
      t = { s with chans := upd s.chans c ch, guards := t.guards, intervals := t.intervals, ex := t.ex } :=
    fun ht => ⟨s.chan c, .inl rfl, by rw [ht]; simp only [State.chan, Fin.getElem_fin, upd_self]⟩
  unfold State.guardChan
  split
  · dsimp only
    split
    · split
      · next hfloor =>
        have happ : (s.setGuard c ((s.guard c).count code)).chan c = s.chan c := rfl
        rw [happ] at hfloor
        exact ⟨_, .inr ⟨by omega, rfl⟩, State.guardStep_frame _ _ _⟩
      · exact hleft (State.guardFloor_frame _ _ _)
    · exact hleft rfl
  · exact hleft rfl

/-- All that one channel's work at a boundary can do (R98). -/
theorem State.meterChan_cases (s : State) (c : ChanId) : ∃ ch, s.Guarded c ch ∧
    s.meterChan c = { s with
      chans := upd s.chans c ch, blocks := upd s.blocks c resetBlock, guards := (s.meterChan c).guards
      intervals := (s.meterChan c).intervals, ex := (s.meterChan c).ex } := by
  obtain ⟨ch, hch, he⟩ := s.guardChan_cases c (s.blocks[c]).code
  refine ⟨ch, hch, ?_⟩
  unfold State.meterChan
  dsimp only
  rw [he]

end Sys2Proof.Machine
end

section
/-! PROOFS. The swap of scenes at a block boundary (R121 to R126). -/

namespace Sys2Proof.Machine

/-! ### What a new target does to a channel's marks -/

/-- The response to a target keeps the target-set flag, an urgent mark that is off, and a tag that is the setter's. -/
theorem Chan.respond_marks (c : ChanId) (ch : Chan) (t : Option Half) :
    (ch.respond c t).1.tgtSet = ch.tgtSet ∧ (ch.urgent = false → (ch.respond c t).1.urgent = false) ∧
      (ch.tag = t → (ch.respond c t).1.tag = t) := by
  unfold Chan.respond
  repeat' (first | exact ⟨rfl, fun h => h, fun h => h⟩ | exact ⟨rfl, fun h => h, fun _ => rfl⟩ |
    exact ⟨rfl, fun _ => rfl, fun h => h⟩ | split)

/-- A request's or a swap's target is marked as set, with its setter's tag and no urgent mark (R71). -/
theorem Chan.requestTarget_marks (c : ChanId) (ch : Chan) (t : Option Half) (x : Setting) :
    (ch.requestTarget c t x).1.tgtSet = true ∧ (ch.requestTarget c t x).1.urgent = false ∧
      (ch.requestTarget c t x).1.tag = t := by
  obtain ⟨h1, h2, h3⟩ := (ch.record t x).respond_marks c t
  exact ⟨h1, h2 rfl, h3 rfl⟩

/-! ### The exchange of the banks, channel by channel -/

section banks
variable (s : State) (c : ChanId)

theorem State.exchangeBanks_chan : s.exchangeBanks.chan c =
    if s.swapped c then { (s.swapTarget c).1 with owner := s.sceneOwner s.scenes.shadow[c] } else s.chan c := by
  simp only [State.chan, State.exchangeBanks, Fin.getElem_fin, tab_get]

theorem State.exchangeBanks_xp (f : Feed) : s.exchangeBanks.xp c f =
    if s.swapped c then (s.xp c f).install s.scenes.shadow[c] (s.sceneOwner s.scenes.shadow[c]) f else s.xp c f := by
  simp only [State.xp, State.exchangeBanks, Fin.getElem_fin, tab_get]
  split
  · rw [PerFeed.of_get]
  · rfl

theorem State.exchangeBanks_shadow : s.exchangeBanks.scenes.shadow[c] =
    if s.swapped c then s.capture c else s.scenes.shadow[c] := by
  simp only [State.exchangeBanks, Fin.getElem_fin, tab_get]

/-- The exchange of the banks touches the channel records, the crosspoints and the Scene Store alone. -/
theorem State.exchangeBanks_frame : s.exchangeBanks = { s with
    chans := s.exchangeBanks.chans, xps := s.exchangeBanks.xps, scenes := s.exchangeBanks.scenes } := rfl

/-- The feed a record names becomes owner where it is enabled (R123). -/
theorem State.sceneOwner_eq_some (r : SceneRecord) (f : Feed) :
    s.sceneOwner r = some f ↔ r.owner = some f ∧ s.feedOn.get f = true := by
  unfold State.sceneOwner
  cases r.owner with
  | none => simp
  | some g =>
    by_cases hg : s.feedOn.get g = true
    · simp only [hg, if_true, Option.some.injEq]
      exact ⟨fun h => ⟨h, h ▸ hg⟩, fun h => h.1⟩
    · simp only [hg]
      simp only [Bool.false_eq_true, if_false, Option.some.injEq, false_iff, reduceCtorEq]
      rintro ⟨rfl, h⟩
      exact hg h

end banks

/-! ### What the swap hands over -/

/-- A concatenation over the elements that pass a test, as one over all elements. -/
theorem flatMap_filter_ite {α β : Type} (p : α → Bool) (f : α → List β) (l : List α) :
    (l.filter p).flatMap f = l.flatMap fun a => if p a = true then f a else [] := by
  induction l with
  | nil => rfl
  | cons a l ih => cases h : p a <;> simp [h, ih]

/-- Where an element gives at most one event, the number of events is that of the elements which give one. -/
theorem length_flatMap_ite {α β : Type} (p : α → Prop) [DecidablePred p] (f : α → β) (l : List α) :
    (l.flatMap fun a => if p a then [f a] else []).length = l.countP fun a => decide (p a) := by
  induction l with
  | nil => rfl
  | cons a l ih =>
    rw [List.flatMap_cons, List.length_append, ih, List.countP_cons, Nat.add_comm]
    by_cases h : p a <;> simp [h]

/-- The owner a swapped channel gets is the one its record installs. -/
theorem State.exchangeBanks_owner (s : State) (c : ChanId) : (s.exchangeBanks.chan c).owner =
    if s.swapped c then s.sceneOwner s.scenes.shadow[c] else (s.chan c).owner := by
  rw [State.exchangeBanks_chan]; split <;> rfl

/-- The OWNERSHIP events of a swap: one for each swapped channel whose owner it changes (R123). -/
theorem State.swapOwnership_events (s : State) : (s.swappedList.flatMap fun c => s.swapOwnership c) =
    (List.finRange 64).flatMap fun c => if s.swapped c = true ∧ (s.exchangeBanks.chan c).owner ≠ (s.chan c).owner
      then [.ownership c (s.chan c).owner (s.exchangeBanks.chan c).owner .scene s.scenes.tag] else [] := by
  rw [State.swappedList, flatMap_filter_ite]
  refine List.flatMap_congr fun c _ => ?_
  rw [State.exchangeBanks_owner, State.swapOwnership]
  by_cases hc : s.swapped c = true
  · simp only [hc, if_true, true_and, ne_eq, ite_not]
  · simp only [hc, Bool.false_eq_true, if_false, false_and]

/-- The SWAP_DONE event, which counts the OWNERSHIP events (R126). -/
theorem State.swapDone_eq (s : State) : s.swapDone = .swapDone s.scenes.tag
    ((List.finRange 64).countP fun c => s.swapped c && decide ((s.exchangeBanks.chan c).owner ≠ (s.chan c).owner))
    (s.scenes.mask &&& s.scenes.loaded) (s.scenes.mask &&& ~~~s.scenes.loaded) := by
  rw [State.swapDone, State.swapOwnership_events, length_flatMap_ite]
  simp only [Bool.decide_and, Bool.decide_eq_true]

/-- The swap at a boundary with a pending mask: the banks exchanged and the events of R126 and R123 in order. -/
theorem State.sceneBoundary_of_mask {s : State} (h : s.scenes.mask ≠ 0#64) (owed : List BoundaryUnit) :
    ({ s with owed := owed } : State).sceneBoundary = { s.exchangeBanks with
      owed := owed
      ex := s.ex.joinAll s.frame (s.swapDone :: ((s.swappedList.flatMap fun c => s.swapOwnership c) ++
        s.swappedList.flatMap fun c => (s.swapTarget c).2)) } := by
  rw [State.sceneBoundary, if_neg h]; rfl

/-- SWAP_APPLY, where the Scene Store owes its boundary work: its work alone is done, on the banks as they stand. -/
theorem exec_swapApply {s : State} (ho : s.owed.contains .sceneStore = true) (hm : s.scenes.mask ≠ 0#64) :
    ∃ owed, exec .swapApply s = .next { s.exchangeBanks with
      owed := owed
      ex := s.ex.joinAll s.frame (s.swapDone :: ((s.swappedList.flatMap fun c => s.swapOwnership c) ++
        s.swappedList.flatMap fun c => (s.swapTarget c).2)) } := by
  refine ⟨s.owed.filter fun v => v != .sceneStore, ?_⟩
  simp only [exec, execSwapApply, State.boundaryWork, List.foldl, State.unitBoundary, ho, if_true, State.unitWork,
    State.sceneBoundary_of_mask hm]

/-- Settles O35: channel by channel, the exchange of the banks is the capture of the active settings and the scene's record
put in their place. -/
theorem swapExchangesBanks : Obligations.SwapExchangesBanks := by
  unfold Obligations.SwapExchangesBanks
  intro s ho hm
  obtain ⟨owed, he⟩ := exec_swapApply ho hm
  generalize hev : (s.swapDone :: ((s.swappedList.flatMap fun c => s.swapOwnership c) ++
    s.swappedList.flatMap fun c => (s.swapTarget c).2)) = evs at he
  generalize ht : ({ s.exchangeBanks with owed := owed, ex := s.ex.joinAll s.frame evs } : State) = t at he
  have hchans : t.chans = s.exchangeBanks.chans := by rw [← ht]
  have hxps : t.xps = s.exchangeBanks.xps := by rw [← ht]
  have hex : t.ex = s.ex.joinAll s.frame evs := by rw [← ht]
  have hchan (c : ChanId) : t.chan c = s.exchangeBanks.chan c := by rw [State.chan, State.chan, hchans]
  have hxp (c : ChanId) (f : Feed) : t.xp c f = s.exchangeBanks.xp c f := by rw [State.xp, State.xp, hxps]
  have hscenes : t.scenes = s.exchangeBanks.scenes := by rw [← ht]
  refine ⟨t, he, ?_, by rw [hscenes]; rfl, by rw [hscenes]; rfl, by simp only [hscenes, State.exchangeBanks], fun swapped hs => ?_,
    fun c => ⟨fun hc => ?_, fun hc => ?_⟩⟩
  · rw [hchans, hxps, hscenes, hex, show t.owed = owed by rw [← ht], ← ht]
    exact congrArg (fun u : State => { u with owed := owed, ex := s.ex.joinAll s.frame evs }) s.exchangeBanks_frame
  · obtain rfl : swapped = s.swapped := funext fun c => (hs c).trans rfl
    rw [hex, ← hev, State.swapDone_eq, State.swapOwnership_events, State.swappedList, flatMap_filter_ite]
    simp only [hchan]
    rfl
  · have hn : s.swapped c = false := hc
    simp only [hchan, hxp, hscenes, State.exchangeBanks_chan, State.exchangeBanks_xp, State.exchangeBanks_shadow, hn]
    exact ⟨rfl, fun _ => rfl, rfl⟩
  · have hy : s.swapped c = true := hc
    obtain ⟨hack, happ, htgt, hpend, _⟩ :=
      (Chan.settings_iff (b := { s.chan c with tgt := s.scenes.shadow[c].target })).1
        ((s.chan c).requestTarget_settings c s.scenes.tag s.scenes.shadow[c].target)
    obtain ⟨hset, hurgent, htag⟩ := (s.chan c).requestTarget_marks c s.scenes.tag s.scenes.shadow[c].target
    have hstand := (s.chan c).requestTarget_standing c s.scenes.tag s.scenes.shadow[c].target
    have hphantom := congrArg (fun p : Option Feed × Bool × Bool => p.2.1) hstand
    simp only [hchan, hxp, hscenes, State.exchangeBanks_chan, State.exchangeBanks_xp, State.exchangeBanks_shadow, hy, if_true]
    refine ⟨rfl, htgt, htag, hset, hurgent, hphantom, hack, happ, hpend, s.sceneOwner_eq_some _,
      fun f => ⟨rfl, rfl, rfl, rfl, rfl, rfl, rfl⟩, rfl, rfl, fun f => ?_⟩
    rw [State.capture, PerFeed.of_get]

end Sys2Proof.Machine
end

section
/-! PROOFS. The laws of R3, R4 and R5: every operation of the model keeps every analog code, trim and reference in its
set. -/

namespace Sys2Proof.Machine

/-! ### Crosspoints -/

/-- Only the mode and the trim of a crosspoint bear on its legality. -/
theorem Xp.legal_of_eq {x y : Xp} (hm : y.mode = x.mode) (ht : y.trim = x.trim) (h : x.legal) : y.legal := by
  unfold Xp.legal; rwa [hm, ht]

theorem Xp.enterTrack_legal {x : Xp} {lapp : Int} (h : x.legal) (hl : legalLevel lapp) : (x.enterTrack lapp).legal := by
  unfold Xp.enterTrack
  split
  · exact h
  all_goals
    refine ⟨h.1, ?_⟩
    rintro r ⟨⟩
    exact hl

theorem Xp.leaveTrack_legal {x : Xp} {mode : XpMode} (hm : ∀ r, mode ≠ .track r) (lapp : Int) (h : x.legal) :
    (x.leaveTrack mode lapp).legal := by
  unfold Xp.leaveTrack
  split
  · exact ⟨clampGain_legal _, fun r hr => absurd hr (hm r)⟩
  · exact ⟨h.1, fun r hr => absurd hr (hm r)⟩

theorem Xp.relevel_legal {x : Xp} (old : Int) {new : Int} (h : x.legal) (hn : legalLevel new) :
    (x.relevel old new).legal := by
  unfold Xp.relevel
  split
  · exact h
  · split
    · refine ⟨h.1, ?_⟩
      rintro r ⟨⟩
      exact hn
    all_goals exact h
  · exact ⟨clampGain_legal _, h.2⟩

theorem Xp.setTrim_legal {x : Xp} {trim : Int} (lapp : Int) (h : x.legal) (ht : legalTrim trim) :
    (x.setTrim trim lapp).legal := ⟨ht, h.2⟩

/-- A swap installs the trims of a legal record, and references at its target's level (R123). -/
theorem Xp.install_legal (x : Xp) {r : SceneRecord} (hr : r.legal) (owner : Option Feed) (f : Feed) :
    (x.install r owner f).legal := by
  refine ⟨hr.2 f, fun l hl => ?_⟩
  simp only [Xp.install] at hl
  split at hl
  · cases hl
  · split at hl
    · cases hl; exact Setting.level_legal hr.1
    · cases hl

/-- A scene entry is read onto the grid of codes and into the range of trims (R116). -/
theorem readEntry_legal (m : List Host.Cell) (a : Nat) : (readEntry m a).record.legal :=
  ⟨roundCode_legal _ _, fun f => by simpa [readEntry] using clampGain_legal _⟩

/-! ### Answers on the line -/

theorem InFlight.age_sound {t : InFlight} (h : t.sound) : t.age.sound := h

/-- A character without an error passes the content checks (R33, R34). -/
theorem contentFails_of_charError {k : TxKind} {n : Nat} {ch : LineChar} (h : charError k n ch = none) :
    contentFails k n ch = false := by
  by_contra hc
  simp [charError, Bool.not_eq_false _ ▸ hc] at h
  split_ifs at h

/-- A character that is received without an error at the place of a position holds one of 0 to 40 (R33, R34). -/
theorem InFlight.receive_sound {t : InFlight} (h : t.sound) (ch : LineChar) : (t.receive ch).sound := by
  intro he i hi hodd
  simp only [InFlight.receive] at he hi ⊢
  split at he
  · cases he
  · next h0 =>
    rw [List.length_append, List.length_singleton] at hi
    rcases Nat.lt_or_ge i t.data.length with hlt | hge
    · rw [List.getD_append _ _ _ _ hlt]
      exact h h0 i hlt hodd
    · obtain rfl : i = t.data.length := by omega
      have hc := contentFails_of_charError he
      simp only [contentFails, if_neg (show ¬ t.data.length % 2 = 0 by omega), Bool.or_eq_false_iff,
        decide_eq_false_iff_not, not_lt] at hc
      simpa using hc.2

/-- A pair of answer characters reports a legal setting where its position is one of 0 to 40. -/
theorem pairState_legal (first : Byte) {second : Byte} (h : second.toNat % 64 ≤ 40) :
    (pairState first second).setting.legal := by
  unfold pairState Setting.legal
  dsimp only
  omega

/-- Every pair of a sound answer reports a legal setting; a character that has not come reads as position 0. -/
theorem InFlight.sound.pair_legal {t : InFlight} (h : t.sound) (he : t.firstError = none) (first : Byte) (i : Nat) :
    (pairState first (t.data.getD (2 * i + 1) 0#8)).setting.legal := by
  apply pairState_legal
  rcases Nat.lt_or_ge (2 * i + 1) t.data.length with hlt | hge
  · exact h he _ hlt (by omega)
  · rw [List.getD_eq_default _ _ hge]; decide

/-! ### The law under the updates of the state -/

namespace State.LevelLaw

variable {s : State}

theorem setChan {ch : Chan} (c : ChanId) (hc : ch.legal) (h : s.LevelLaw) : (s.setChan c ch).LevelLaw := by
  refine ⟨fun d => ?_, h.2⟩
  rw [State.setChan_chan]
  split
  · exact hc
  · exact h.1 d

theorem setXp {x : Xp} (c : ChanId) (f : Feed) (hx : x.legal) (h : s.LevelLaw) : (s.setXp c f x).LevelLaw := by
  obtain ⟨hc, hxs, hr⟩ := h
  refine ⟨hc, fun d g => ?_, hr⟩
  rw [State.setXp_xp]
  split
  · exact hx
  · exact hxs d g

/-- A legal record put in force keeps the law: its level is one of the 82, so the references taken again from it are too. -/
theorem putChan {r : Chan × List Event} (c : ChanId) (hr : r.1.legal) (h : s.LevelLaw) : (s.putChan c r).LevelLaw := by
  obtain ⟨hc, hx, hrest⟩ := h
  refine ⟨fun d => ?_, fun d f => ?_, hrest⟩
  · rw [State.putChan_chan]
    split
    · exact hr
    · exact hc d
  · rw [State.putChan_xp]
    split
    · exact Xp.relevel_legal _ (hx d f) (Setting.level_legal hr.2.1)
    · exact hx d f

/-! The exchange, the boards, the guards and the ports hold no level. -/

theorem setEx (x : Exchange) (h : s.LevelLaw) : (s.setEx x).LevelLaw := h
theorem raise (e : Event) (h : s.LevelLaw) : (s.raise e).LevelLaw := h
theorem raiseAll (es : List Event) (h : s.LevelLaw) : (s.raiseAll es).LevelLaw := h
theorem setBoard (b : BoardId) (x : Board) (h : s.LevelLaw) : (s.setBoard b x).LevelLaw := h
theorem setGuard (c : ChanId) (g : Guard) (h : s.LevelLaw) : (s.setGuard c g).LevelLaw := h
theorem setPort (p : Port) (x : PortRec) (h : s.LevelLaw) : (s.setPort p x).LevelLaw := h
theorem finish (t : TakeHead) (r : Result) (y : Option (List Byte)) (h : s.LevelLaw) : (s.finish t r y).LevelLaw := h
theorem hold (t : TakeHead) (r : Result) (y : XpReply) (h : s.LevelLaw) : (s.hold t r y).LevelLaw := h

/-- Legal channel records and a legal answer, or none, beside the same crosspoints and scenes. -/
theorem withChans {t : State} (h : s.LevelLaw) (hc : ∀ c, (t.chan c).legal) (hx : t.xps = s.xps)
    (hs : t.scenes = s.scenes) (hl : ∀ a, t.line = some a → a.sound) : t.LevelLaw :=
  ⟨hc, fun c f => by rw [State.xp, hx]; exact h.2.1 c f, hs ▸ h.2.2.1, hl⟩

/-- Legal crosspoints beside the same channel records, scenes and answer. -/
theorem withXps {t : State} (h : s.LevelLaw) (hc : t.chans = s.chans) (hx : ∀ c f, (t.xp c f).legal)
    (hs : t.scenes = s.scenes) (hl : t.line = s.line) : t.LevelLaw :=
  ⟨fun c => by rw [State.chan, hc]; exact h.1 c, hx, hs ▸ h.2.2.1, hl ▸ h.2.2.2⟩

/-- Legal shadow records beside the same active settings. -/
theorem withShadow {shadow : Vector SceneRecord 64} (hv : ∀ c : ChanId, shadow[c].legal) (loaded : ChanMask)
    (h : s.LevelLaw) : ({ s with scenes := { s.scenes with shadow := shadow, loaded := loaded } } : State).LevelLaw :=
  ⟨h.1, h.2.1, hv, h.2.2.2⟩

/-- A legal answer, or none, stands on the line. -/
theorem withLine {l : Option InFlight} (hl : ∀ t, l = some t → t.sound) (h : s.LevelLaw) :
    ({ s with line := l } : State).LevelLaw := ⟨h.1, h.2.1, h.2.2.1, hl⟩

/-- What every step of a fold keeps, the fold keeps. -/
theorem foldl {α : Type} {f : State → α → State} (hf : ∀ t a, t.LevelLaw → (f t a).LevelLaw) (l : List α)
    (h : s.LevelLaw) : (l.foldl f s).LevelLaw :=
  List.foldlRecOn l f h fun t ht a _ => hf t a ht

/-! ### The line and the arbiter -/

theorem startFor (r : ReqId) (h : s.LevelLaw) : (s.startFor r).LevelLaw := by
  have hfresh (k : TxKind) (b : BoardId) : (⟨k, b, [], none, 0⟩ : InFlight).sound :=
    fun _ i hi => absurd hi (Nat.not_lt_zero i)
  unfold State.startFor
  split
  · next c _ =>
    refine (h.setChan c (Chan.granted_legal _ (h.1 c))).withLine ?_
    rintro t ⟨⟩
    exact hfresh _ _
  · refine h.withLine ?_
    rintro t ⟨⟩
    exact hfresh _ _

theorem arbitrate (first : Option ReqId) (h : s.LevelLaw) : (s.arbitrate first).LevelLaw := by
  unfold State.arbitrate
  split
  · exact h
  · split
    · exact h
    · exact h.startFor _

theorem freeLine (h : s.LevelLaw) : s.freeLine.LevelLaw := h.withLine fun _ ht => nomatch ht

theorem txSucceeds {t : InFlight} (ht : t.sound) (he : t.firstError = none) (h : s.LevelLaw) :
    (s.txSucceeds t).LevelLaw := by
  unfold State.txSucceeds
  split
  · next c sent _ =>
    exact (h.setBoard _ _).putChan c (Chan.stepAnswer_legal c _ _ sent _ (h.1 c) (ht.pair_legal he _ 0))
  · have hchans : ((s.setBoard t.board { s.board t.board with failures := 0, offline := false }).readbackChans t.board
        t.data).LevelLaw :=
      (h.setBoard _ _).foldl (fun u i hu => hu.putChan _ (Chan.readback_legal _ _ _ (hu.1 _) (ht.pair_legal he _ i.val))) _
    unfold State.readbackSucceeds
    dsimp only
    split
    · exact hchans.raise _
    · exact hchans

theorem boardOffline (b : BoardId) (err : LineError) (h : s.LevelLaw) : (s.boardOffline b err).LevelLaw := by
  have hlost (ch : Chan) (hc : ch.legal) : ch.boardLost.legal := hc
  unfold State.boardOffline
  exact State.LevelLaw.raise _ (State.LevelLaw.foldl (fun t i ht => ht.setChan _ (hlost _ (ht.1 (chanAt b i)))) _ h)

theorem txFails (t : InFlight) (err : LineError) (h : s.LevelLaw) : (s.txFails t err).LevelLaw := by
  have hlost (u : State) (hu : u.LevelLaw) (p : Bool) : (if p then u.boardOffline t.board err else u).LevelLaw := by
    split
    · exact hu.boardOffline _ _
    · exact hu
  unfold State.txFails
  cases t.kind with
  | step c sent => exact hlost _ (((h.setBoard _ _).putChan c (Chan.failStep_legal c _ (h.1 c))).raise _) _
  | readback => exact hlost _ (h.setBoard _ _) _

theorem receiveChar (ch : LineChar) (h : s.LevelLaw) : (s.receiveChar ch).LevelLaw := by
  unfold State.receiveChar
  split
  · exact h
  · next t ht =>
    have hs := InFlight.receive_sound (h.2.2.2 t ht) ch
    dsimp only
    split
    · unfold State.txComplete
      split
      · next he => exact (h.txSucceeds hs he).freeLine
      · exact (h.txFails _ _).freeLine
    · refine h.withLine ?_
      rintro t ⟨⟩
      exact hs

theorem windowExpires (h : s.LevelLaw) : s.windowExpires.LevelLaw := by
  unfold State.windowExpires
  split
  · exact h
  · split
    · exact (h.txFails _ _).freeLine
    · exact h

theorem retryReadback (b : BoardId) (h : s.LevelLaw) : (s.retryReadback b).LevelLaw := by
  unfold State.retryReadback
  split
  · exact h
  · exact h

/-! ### The steps of a channel -/

theorem forceStep (c : ChanId) (h : s.LevelLaw) : (s.forceStep c).LevelLaw := by
  unfold State.forceStep
  split
  · exact h.setChan c (Chan.legal_of_settings rfl (h.1 c))
  · exact h

theorem applyPending (c : ChanId) (h : s.LevelLaw) : (s.applyPending c).LevelLaw := by
  unfold State.applyPending
  split
  · exact h.putChan c (Chan.applyHead_legal c _ (h.1 c))
  · exact h

theorem finishRamp (c : ChanId) (h : s.LevelLaw) : (s.finishRamp c).LevelLaw := by
  unfold State.finishRamp
  split
  · exact h.putChan c (Chan.legal_of_settings rfl (h.1 c))
  · exact h

theorem catchUp (h : s.LevelLaw) : s.catchUp.LevelLaw := by
  unfold State.catchUp
  split
  · exact h
  · have hreply : (s.setEx s.ex.writeReply).LevelLaw := h
    exact (hreply.foldl (fun t c ht => ((ht.forceStep c).finishRamp c).applyPending c) _).windowExpires.arbitrate none

/-! ### Block boundaries -/

/-- A guard lowers a legal target to a legal one: it acts only where the applied code is one step or more (R107, R108). -/
theorem guarded {c : ChanId} {ch : Chan} (hg : s.Guarded c ch) (h : s.LevelLaw) : ch.legal := by
  rcases hg with rfl | ⟨happ, rfl⟩
  · exact h.1 c
  · obtain ⟨_, ha, ht, _⟩ := h.1 c
    exact Chan.guardTarget_legal _ _ (h.1 c) ⟨by dsimp only; omega, by dsimp only; omega, by dsimp only; omega⟩

theorem meterChan (c : ChanId) (h : s.LevelLaw) : (s.meterChan c).LevelLaw := by
  obtain ⟨ch, hg, he⟩ := s.meterChan_cases c
  rw [he]
  exact h.setChan c (h.guarded hg)

/-- The active settings of a channel are a legal scene record. -/
theorem capture (c : ChanId) (h : s.LevelLaw) : (s.capture c).legal :=
  ⟨(h.1 c).2.2.1, fun f => by simpa [State.capture] using (h.2.1 c f).1⟩

theorem exchangeBanks (h : s.LevelLaw) : s.exchangeBanks.LevelLaw := by
  refine ⟨fun c => ?_, fun c f => ?_, fun c => ?_, fun t ht => h.2.2.2 t (by simpa only [State.exchangeBanks] using ht)⟩
  · rw [State.exchangeBanks_chan]
    split
    · exact Chan.legal_of_settings rfl (Chan.requestTarget_legal c _ s.scenes.tag (h.1 c) (h.2.2.1 c).1)
    · exact h.1 c
  · rw [State.exchangeBanks_xp]
    split
    · exact Xp.install_legal _ (h.2.2.1 c) _ _
    · exact h.2.1 c f
  · rw [State.exchangeBanks_shadow]
    split
    · exact h.capture c
    · exact h.2.2.1 c

theorem sceneBoundary (h : s.LevelLaw) : s.sceneBoundary.LevelLaw := by
  unfold State.sceneBoundary
  split
  · exact h
  · exact h.exchangeBanks.raiseAll _

theorem putClock (m : ClockMove) (tag : Option Half) (h : s.LevelLaw) : (s.putClock m tag).LevelLaw := by
  rw [State.putClock_frame]; exact h

theorem unitWork (u : BoundaryUnit) (ph : PhaseInput) (h : s.LevelLaw) : (s.unitWork u ph).LevelLaw := by
  cases u with
  | meterGuard => exact State.LevelLaw.foldl (fun t c ht => ht.meterChan c) _ h
  | preampLine => exact h
  | sceneStore => exact h.sceneBoundary
  | feedPorts => exact State.LevelLaw.foldl (fun t p ht => (ht.setPort p _).raiseAll _) _ h
  | exchange => exact h
  | clock => exact h.putClock _ none

theorem boundaryWork (us : List BoundaryUnit) (ph : PhaseInput) (h : s.LevelLaw) : (s.boundaryWork us ph).LevelLaw := by
  refine State.LevelLaw.foldl (fun t u ht => ?_) us h
  have howed (o : List BoundaryUnit) : ({ t with owed := o } : State).LevelLaw := ht
  unfold State.unitBoundary
  split
  · exact (howed _).unitWork u ph
  · exact ht

theorem acquisitionGivesUp (h : s.LevelLaw) : s.acquisitionGivesUp.LevelLaw := by
  unfold State.acquisitionGivesUp
  split
  · exact h.putClock _ _
  · exact h

theorem clockRetries (h : s.LevelLaw) : s.clockRetries.LevelLaw := by
  unfold State.clockRetries
  split
  · exact h.putClock _ _
  · exact h

theorem clockSettled (h : s.LevelLaw) : s.clockSettled.LevelLaw := h.acquisitionGivesUp.clockRetries

theorem closeInterval (h : s.LevelLaw) : s.closeInterval.LevelLaw := by
  unfold State.closeInterval
  split
  · refine h.withXps (by simp only) (fun c f => ?_) (by simp only) (by simp only)
    simp only [State.xp, Fin.getElem_fin, tab_get, PerFeed.of_get]
    exact Xp.legal_of_eq rfl rfl (h.2.1 c f)
  · exact h

theorem exchangeSettled (h : s.LevelLaw) : s.exchangeSettled.LevelLaw := h.closeInterval.setEx _

theorem boundaryRest (h : s.LevelLaw) : s.boundaryRest.LevelLaw := by
  unfold State.boundaryRest
  split
  · exact h
  · exact (State.LevelLaw.foldl (fun t b ht => ht.retryReadback b) _ (h.boundaryWork _ _).clockSettled).exchangeSettled

/-! ### Samples -/

theorem judgeLane (g : LaneId) (f : LaneInput) (h : s.LevelLaw) : (s.judgeLane g f).LevelLaw := by
  unfold State.judgeLane
  dsimp only
  split
  · exact h
  · exact h

theorem missingFrames (h : s.LevelLaw) : s.missingFrames.LevelLaw :=
  State.LevelLaw.foldl (fun _ g ht => ht.judgeLane g .missing) _ h

theorem computeSample (h : s.LevelLaw) : s.computeSample.LevelLaw := by
  unfold State.computeSample
  refine State.LevelLaw.raiseAll _ (h.withXps (by simp only) (fun c f => ?_) (by simp only) (by simp only))
  simp only [State.xp, Fin.getElem_fin, tab_get, PerFeed.of_get]
  exact Xp.legal_of_eq rfl rfl (h.2.1 c f)

theorem watchAll (h : s.LevelLaw) : s.watchAll.LevelLaw := by
  unfold State.watchAll
  refine h.withChans (fun c => ?_) (by simp only) (by simp only) fun a ha => ?_
  · simp only [State.chan, Fin.getElem_fin, tab_get]
    exact Chan.legal_of_settings (Chan.watch_settings _ _) (h.1 c)
  · simp only [Option.map_eq_some_iff] at ha
    obtain ⟨a', ha', rfl⟩ := ha
    exact InFlight.age_sound (h.2.2.2 a' ha')

theorem sendFrames (h : s.LevelLaw) : s.sendFrames.LevelLaw := h

theorem takeSample (h : s.LevelLaw) : s.takeSample.LevelLaw := h.missingFrames.computeSample.watchAll.sendFrames

theorem endPeriod (h : s.LevelLaw) : s.endPeriod.LevelLaw := by
  unfold State.endPeriod
  refine h.withChans (fun c => ?_) (by simp only) (by simp only) (by simpa only using h.2.2.2)
  simp only [State.chan, Fin.getElem_fin, tab_get]
  exact Chan.legal_of_settings rfl (h.1 c)

/-! ### Changes of owner -/

theorem enterTrack (c : ChanId) (f : Feed) (h : s.LevelLaw) : (s.enterTrack c f).LevelLaw :=
  h.setXp c f (Xp.enterTrack_legal (h.2.1 c f) (Setting.level_legal (h.1 c).2.1))

theorem leaveTrack (c : ChanId) (f : Feed) {mode : XpMode} (hm : ∀ r, mode ≠ .track r) (h : s.LevelLaw) :
    (s.leaveTrack c f mode).LevelLaw :=
  h.setXp c f (Xp.leaveTrack_legal hm _ (h.2.1 c f))

theorem changeOwner (c : ChanId) (new : Option Feed) (cause : OwnCause) (tag : Half) (h : s.LevelLaw) :
    (s.changeOwner c new cause tag).LevelLaw := by
  have h1 := (h.setChan c (Chan.legal_of_settings (a := { s.chan c with owner := new }) rfl (h.1 c))).raise
    (.ownership c (s.chan c).owner new cause (some tag))
  exact h1.putChan c (Chan.cancel_legal c _ cause (h1.1 c))

theorem giveUp (c : ChanId) (f : Feed) (cause : OwnCause) (tag : Half) (h : s.LevelLaw) :
    (s.giveUp c f cause tag).LevelLaw := (h.enterTrack c f).changeOwner _ _ _ _

theorem claimFree (c : ChanId) (f : Feed) (tag : Half) (h : s.LevelLaw) : (s.claimFree c f tag).LevelLaw :=
  (h.leaveTrack c f (mode := .owner) (by simp)).changeOwner _ _ _ _

theorem takeOver (c : ChanId) (former f : Feed) (tag : Half) (h : s.LevelLaw) : (s.takeOver c former f tag).LevelLaw :=
  ((h.enterTrack c former).leaveTrack c f (mode := .owner) (by simp)).changeOwner _ _ _ _

theorem disableFeed (f : Feed) (tag : Half) (h : s.LevelLaw) : (s.disableFeed f tag).LevelLaw := by
  have hport (t : State) (p : Port) (ht : t.LevelLaw) : (State.portDisable tag t p).LevelLaw := by
    unfold State.portDisable
    dsimp only
    split
    · exact ht
    · exact ht
  have hoff : ({ s with feedOn := s.feedOn.set f false } : State).LevelLaw := h
  exact State.LevelLaw.foldl (fun t c ht => ht.giveUp c f .feedOff tag) _ (State.LevelLaw.foldl hport _ hoff)

theorem enableFeed (f : Feed) (tag : Half) (h : s.LevelLaw) : (s.enableFeed f tag).LevelLaw := by
  have hon : ({ s with feedOn := s.feedOn.set f true } : State).LevelLaw := h
  exact State.LevelLaw.foldl (fun t p ht => (ht.setPort p _).raise _) _ hon

/-! ### Requests -/

theorem withChan (t : TakeHead) {k : ChanId → Source → State} (hk : ∀ c src, (k c src).LevelLaw) (h : s.LevelLaw) :
    (s.withChan t k).LevelLaw := by
  unfold State.withChan
  split
  · exact h.finish _ _ _
  · exact h.finish _ _ _
  · exact hk _ _

theorem withXp (t : TakeHead) {k : ChanId → Feed → State} (hk : ∀ c f, (k c f).LevelLaw) (h : s.LevelLaw) :
    (s.withXp t k).LevelLaw := by
  unfold State.withXp
  split
  · exact h.finish _ _ _
  · exact h.finish _ _ _
  · exact h.finish _ _ _
  · split
    · exact hk _ _
    · exact h.finish _ _ _

theorem withFeed (t : TakeHead) {k : Feed → State} (hk : ∀ f, (k f).LevelLaw) (h : s.LevelLaw) :
    (s.withFeed t k).LevelLaw := by
  unfold State.withFeed
  split
  · exact h.finish _ _ _
  · exact h.finish _ _ _
  · split
    · exact hk _
    · exact h.finish _ _ _

theorem withSource (h : s.LevelLaw) (t : TakeHead) {k : State} (hk : k.LevelLaw) : (s.withSource t k).LevelLaw := by
  unfold State.withSource
  split
  · exact h.finish _ _ _
  · exact hk

theorem holdOrFinish (t : TakeHead) (changes : Bool) (r : Result) (reply : XpReply) (h : s.LevelLaw) :
    (s.holdOrFinish t changes r reply).LevelLaw := by
  unfold State.holdOrFinish
  split
  · exact h.hold _ _ _
  · exact h.finish _ _ _

/-- A crosspoint whose trim is brought into its range, or left alone where it has that value already. -/
theorem setTrim (c : ChanId) (f : Feed) (x lapp : Int) (h : s.LevelLaw) :
    (s.setXp c f (if clampGain x = (s.xp c f).trim then s.xp c f else (s.xp c f).setTrim (clampGain x) lapp)).LevelLaw := by
  refine h.setXp c f ?_
  split
  · exact h.2.1 c f
  · exact Xp.setTrim_legal _ (h.2.1 c f) (clampGain_legal _)

theorem serveAsTrim (t : TakeHead) (c : ChanId) (f : Feed) (code : Nat) (h : s.LevelLaw) :
    (s.serveAsTrim t c f code).LevelLaw := (h.setTrim c f _ _).holdOrFinish _ _ _ _

theorem serveSetAnalog (t : TakeHead) (code : Half) (h : s.LevelLaw) : (s.serveSetAnalog t code).LevelLaw := by
  refine h.withChan t fun c src => ?_
  dsimp only
  split
  · refine State.LevelLaw.finish _ _ _ (h.putChan c ?_)
    exact Chan.requestTarget_legal c _ _ (h.1 c) (roundCode_legal _ _)
  · split
    · exact h.finish _ _ _
    · exact h.serveAsTrim t c _ _

theorem serveSetPad (t : TakeHead) (v : Byte) (h : s.LevelLaw) : (s.serveSetPad t v).LevelLaw := by
  refine h.withChan t fun c src => ?_
  dsimp only
  split
  · exact h.finish _ _ _
  · split
    · refine State.LevelLaw.finish _ _ _ (h.putChan c ?_)
      exact Chan.requestTarget_legal c _ _ (h.1 c) (h.1 c).2.2.1
    · exact h.finish _ _ _

theorem serveSetPhantom (t : TakeHead) (v : Byte) (h : s.LevelLaw) : (s.serveSetPhantom t v).LevelLaw := by
  refine h.withChan t fun c src => ?_
  dsimp only
  split
  · exact h.finish _ _ _
  · split
    · exact h.finish _ _ _
    · split
      · exact h.finish _ _ _
      · refine State.LevelLaw.finish _ _ _ (h.setChan c ?_)
        exact Chan.legal_of_settings (b := s.chan c) rfl (h.1 c)

theorem serveResync (t : TakeHead) (h : s.LevelLaw) : (s.serveResync t).LevelLaw :=
  h.withChan t fun c _ => ((h.retryReadback (boardOf c)).setBoard _ _).finish _ _ _

theorem serveSetGuard (t : TakeHead) (e : Byte) (a b c d : Half) (h : s.LevelLaw) :
    (s.serveSetGuard t e a b c d).LevelLaw := by
  refine h.withChan t fun c src => ?_
  dsimp only
  split
  · exact h.finish _ _ _
  · split
    · exact h.finish _ _ _
    · exact (h.setGuard c _).finish _ _ _

theorem serveSetTrim (t : TakeHead) (trim : Half) (h : s.LevelLaw) : (s.serveSetTrim t trim).LevelLaw :=
  h.withXp t fun c f => (h.setTrim c f _ _).holdOrFinish _ _ _ _

theorem serveSetMode (t : TakeHead) (v : Byte) (h : s.LevelLaw) : (s.serveSetMode t v).LevelLaw := by
  refine h.withXp t fun c f => ?_
  dsimp only
  split
  · exact h.finish _ _ _
  · split
    · exact h.finish _ _ _
    · split
      · exact (h.enterTrack c f).hold _ _ _
      · exact h.finish _ _ _
    · split
      · exact h.finish _ _ _
      · exact (h.leaveTrack c f (mode := .follow) (by simp)).hold _ _ _

theorem serveSetFlags (t : TakeHead) (mute invert : Byte) (h : s.LevelLaw) : (s.serveSetFlags t mute invert).LevelLaw := by
  refine h.withXp t fun c f => ?_
  dsimp only
  split
  · exact h.finish _ _ _
  · refine State.LevelLaw.holdOrFinish _ _ _ _ (h.setXp c f ?_)
    exact Xp.legal_of_eq (x := s.xp c f) rfl rfl (h.2.1 c f)

theorem serveClaim (t : TakeHead) (h : s.LevelLaw) : (s.serveClaim t).LevelLaw := by
  refine h.withXp t fun c f => ?_
  dsimp only
  split
  · exact h.finish _ _ _
  · split
    · exact (h.claimFree c f _).hold _ _ _
    · split
      · exact h.finish _ _ _
      · split
        · exact (h.takeOver c _ f _).hold _ _ _
        · exact h.finish _ _ _

theorem serveRelease (t : TakeHead) (h : s.LevelLaw) : (s.serveRelease t).LevelLaw := by
  refine h.withXp t fun c f => ?_
  dsimp only
  split
  · exact (h.giveUp c f _ _).hold _ _ _
  · exact h.finish _ _ _

theorem serveSetFeed (t : TakeHead) (enable senior : Byte) (h : s.LevelLaw) :
    (s.serveSetFeed t enable senior).LevelLaw := by
  refine h.withFeed t fun f => ?_
  have hs : ({ s with senior := selectSenior senior f s.senior } : State).LevelLaw := h
  dsimp only
  split
  · exact h.finish _ _ _
  · refine State.LevelLaw.finish _ _ _ ?_
    split
    · exact hs.disableFeed f t.tag
    · split
      · exact hs.enableFeed f t.tag
      · exact hs

theorem serveLoadSlotmap (t : TakeHead) (map : Word) (h : s.LevelLaw) : (s.serveLoadSlotmap t map).LevelLaw := by
  refine h.withFeed t fun f => ?_
  dsimp only
  split
  · exact h.finish _ _ _
  · split
    · exact h.finish _ _ _
    · exact h

theorem serveLoadShadow (t : TakeHead) (table : Word) (first count : Byte) (h : s.LevelLaw) :
    (s.serveLoadShadow t table first count).LevelLaw := by
  refine h.withSource t ?_
  dsimp only
  split
  · exact h.finish _ _ _
  · split
    · exact h.finish _ _ _
    · split
      · exact h.finish _ _ _
      · split
        · exact h.finish _ _ _
        · refine State.LevelLaw.finish _ _ _ (h.withShadow (fun c => ?_) _)
          simp only [Fin.getElem_fin, tab_get]
          split
          · exact readEntry_legal _ _
          · exact h.2.2.1 c

theorem serveSwap (t : TakeHead) (mask : ChanMask) (h : s.LevelLaw) : (s.serveSwap t mask).LevelLaw := by
  refine h.withSource t ?_
  split
  · exact h.finish _ _ _
  · split
    · exact h.finish _ _ _
    · exact h

theorem serveSetClock (t : TakeHead) (source : Byte) (h : s.LevelLaw) : (s.serveSetClock t source).LevelLaw := by
  have hselect (u : State) (src : ClockSource) (hu : u.LevelLaw) : (u.selectClock src t.tag).LevelLaw := by
    unfold State.selectClock
    dsimp only
    split
    · exact hu
    · exact hu.putClock _ _
  refine h.withSource t ?_
  split
  · exact h.finish _ _ _
  · exact (hselect _ _ h.clockSettled).finish _ _ _

theorem serveSetExchange (t : TakeHead) (select : Byte) (threshold poll meter : Half) (unitId : Byte) (h : s.LevelLaw) :
    (s.serveSetExchange t select threshold poll meter unitId).LevelLaw := by
  refine h.withSource t ?_
  split
  · exact h.finish _ _ _
  · exact (h.exchangeSettled.setEx _).finish _ _ _

theorem serveKind (t : TakeHead) (h : s.LevelLaw) : (s.serveKind t).LevelLaw := by
  unfold State.serveKind
  dsimp only
  split
  · exact h.serveSetAnalog t _
  · exact h.serveSetPad t _
  · exact h.serveSetPhantom t _
  · exact h.withChan t fun c _ => h.finish _ _ _
  · exact h.serveResync t
  · exact h.serveSetGuard t _ _ _ _ _
  · exact h.serveSetTrim t _
  · exact h.serveSetMode t _
  · exact h.serveSetFlags t _ _
  · exact h.serveClaim t
  · exact h.serveRelease t
  · exact h.serveSetFeed t _ _
  · exact h.serveLoadSlotmap t _
  · exact h.serveLoadShadow t _ _ _
  · exact h.serveSwap t _
  · exact h.serveSetClock t _
  · exact h.serveSetExchange t _ _ _ _ _
  · exact h.finish _ _ _

theorem walkStep (h : s.LevelLaw) : s.walkStep.LevelLaw := by
  unfold State.walkStep
  dsimp only
  split
  · split
    · exact h.setEx _
    · split
      · exact h.setEx _
      · exact h.serveKind _
  · exact h

/-- A request keeps the law where its take does. -/
theorem request {r : ReqHead} {kind : Byte} {args : List Byte} {serve : State → TakeHead → State} {t : State}
    (h : s.LevelLaw) (ht : s.request r kind args serve = .next t) (hs : ∀ u t, u.LevelLaw → (serve u t).LevelLaw) :
    t.LevelLaw := by
  obtain rfl := Host.Outcome.next.inj ht
  have hoffer := h.setEx (s.ex.offer r kind args)
  split
  · split
    · exact hs _ _ hoffer
    · exact hoffer.setEx _
  · exact hoffer

end State.LevelLaw

/-! ### Every command -/

/-- The part at power-on meets the law. -/
theorem State.reset_levelLaw : State.reset.LevelLaw := by
  refine ⟨fun c => ?_, fun c f => ?_, fun c => ?_, fun t ht => nomatch ht⟩
  · have hc : State.reset.chan c = resetChan := by simp [State.chan, State.reset]
    rw [hc]
    exact ⟨by decide, by decide, by decide, by decide, fun l hl => nomatch hl⟩
  · have hx : State.reset.xp c f = resetXp := by simp [State.xp, State.reset]
    rw [hx]
    exact ⟨by decide, fun r hr => nomatch hr⟩
  · have hr : State.reset.scenes.shadow[c] = resetScene := by simp [State.reset, resetScenes]
    rw [hr]
    exact ⟨by decide, fun f => by rw [resetScene, perFeed_get]; decide⟩

/-- Every command keeps the law. -/
theorem exec_levelLaw {i : Instr} {s t : State} (h : s.LevelLaw) (ht : exec i s = .next t) : t.LevelLaw := by
  cases i with
  | badKind r kind =>
    simp only [exec, execBadKind] at ht
    refine h.request ht fun u t hu => ?_
    split
    · exact hu.serveKind t
    · exact hu.finish _ _ _
  | setAnalog r code => simp only [exec, execSetAnalog] at ht; exact h.request ht fun u t hu => hu.serveSetAnalog t _
  | setPad r v => simp only [exec, execSetPad] at ht; exact h.request ht fun u t hu => hu.serveSetPad t _
  | setPhantom r v => simp only [exec, execSetPhantom] at ht; exact h.request ht fun u t hu => hu.serveSetPhantom t _
  | readChannel r => simp only [exec, execReadChannel] at ht; exact h.request ht fun u t hu => hu.withChan t fun c _ => hu.finish _ _ _
  | resync r => simp only [exec, execResync] at ht; exact h.request ht fun u t hu => hu.serveResync t
  | setGuard r e a b c d => simp only [exec, execSetGuard] at ht; exact h.request ht fun u t hu => hu.serveSetGuard t _ _ _ _ _
  | setTrim r v => simp only [exec, execSetTrim] at ht; exact h.request ht fun u t hu => hu.serveSetTrim t _
  | setMode r v => simp only [exec, execSetMode] at ht; exact h.request ht fun u t hu => hu.serveSetMode t _
  | setFlags r m v => simp only [exec, execSetFlags] at ht; exact h.request ht fun u t hu => hu.serveSetFlags t _ _
  | claim r => simp only [exec, execClaim] at ht; exact h.request ht fun u t hu => hu.serveClaim t
  | release r => simp only [exec, execRelease] at ht; exact h.request ht fun u t hu => hu.serveRelease t
  | setFeed r e v => simp only [exec, execSetFeed] at ht; exact h.request ht fun u t hu => hu.serveSetFeed t _ _
  | loadSlotmap r map => simp only [exec, execLoadSlotmap] at ht; exact h.request ht fun u t hu => hu.serveLoadSlotmap t _
  | loadShadow r table first count => simp only [exec, execLoadShadow] at ht; exact h.request ht fun u t hu => hu.serveLoadShadow t _ _ _
  | swap r mask => simp only [exec, execSwap] at ht; exact h.request ht fun u t hu => hu.serveSwap t _
  | setClock r src => simp only [exec, execSetClock] at ht; exact h.request ht fun u t hu => hu.serveSetClock t _
  | setExchange r select a b c d => simp only [exec, execSetExchange] at ht; exact h.request ht fun u t hu => hu.serveSetExchange t _ _ _ _ _
  | chainWalk writes =>
    simp only [exec, execChainWalk] at ht
    split at ht
    · cases ht
    · obtain rfl := Host.Outcome.next.inj ht
      exact (h.setEx _).walkStep
  | powerOnReset => obtain rfl := Host.Outcome.next.inj ht; exact State.reset_levelLaw
  | samplePeriod => obtain rfl := Host.Outcome.next.inj ht; exact h.catchUp.takeSample.boundaryRest.endPeriod
  | laneFrame g f => obtain rfl := Host.Outcome.next.inj ht; exact h.judgeLane g f
  | arbiterDecision first => obtain rfl := Host.Outcome.next.inj ht; exact h.arbitrate _
  | answerCharacter ch => obtain rfl := Host.Outcome.next.inj ht; exact h.receiveChar ch
  | answerWindowExpiry => obtain rfl := Host.Outcome.next.inj ht; exact h.windowExpires
  | forcedStep c => obtain rfl := Host.Outcome.next.inj ht; exact h.forceStep c
  | pendingApplication c => obtain rfl := Host.Outcome.next.inj ht; exact h.applyPending c
  | rampEnd c => obtain rfl := Host.Outcome.next.inj ht; exact h.finishRamp c
  | blockBoundary us ph => obtain rfl := Host.Outcome.next.inj ht; exact h.boundaryWork us ph
  | acquisitionTimeout => obtain rfl := Host.Outcome.next.inj ht; exact h.acquisitionGivesUp
  | clockRetry => obtain rfl := Host.Outcome.next.inj ht; exact h.clockRetries
  | readbackRetry b => obtain rfl := Host.Outcome.next.inj ht; exact h.retryReadback b
  | pollCountdownExpiry => obtain rfl := Host.Outcome.next.inj ht; exact h.setEx _
  | meterClose => obtain rfl := Host.Outcome.next.inj ht; exact h.closeInterval
  | swapApply => obtain rfl := Host.Outcome.next.inj ht; exact h.boundaryWork _ _
  | returnWord p w => obtain rfl := Host.Outcome.next.inj ht; exact h.setPort p _
  | wordClockEdge => obtain rfl := Host.Outcome.next.inj ht; exact h
  | replyWrite => obtain rfl := Host.Outcome.next.inj ht; exact h.setEx _
  | poke v =>
    obtain rfl := Host.Outcome.next.inj ht
    split
    · exact h.setEx _
    · exact h
  | clear on =>
    obtain rfl := Host.Outcome.next.inj ht
    split
    · exact h.setEx _
    · exact h
  | releaseWrite v => obtain rfl := Host.Outcome.next.inj ht; exact h.setEx _
  | noticeWrite v => obtain rfl := Host.Outcome.next.inj ht; exact h.setEx _
  | noticeMaskWrite v => obtain rfl := Host.Outcome.next.inj ht; exact h.setEx _
  | blocks code => obtain rfl := Host.Outcome.next.inj ht; exact h.setEx _
  | enable on => obtain rfl := Host.Outcome.next.inj ht; exact h.setEx _
  | exchangeClear => obtain rfl := Host.Outcome.next.inj ht; exact h.setEx _
  | registerWriteIgnored reg v => obtain rfl := Host.Outcome.next.inj ht; exact h.setEx _
  | reportWrite => obtain rfl := Host.Outcome.next.inj ht; exact h.setEx _

/-- Settles O3: the law does not speak of the queue of commands, so a step keeps it as its command does. -/
theorem levelsStayLegal : Obligations.LevelsStayLegal := by
  unfold Obligations.LevelsStayLegal
  intro s t h ht
  unfold step at ht
  split at ht
  · obtain rfl := Host.Outcome.next.inj ht
    exact h
  · next i rest _ =>
    have hrest : ({ s with pending := rest } : State).LevelLaw := h
    exact exec_levelLaw hrest ht

/-- Settles O8: each unit's law holds of its power-on values. -/
theorem resetIsSafe : Obligations.ResetIsSafe := by
  unfold Obligations.ResetIsSafe
  obtain ⟨hstore, hwalk⟩ := Exchange.reset_law
  refine ⟨State.reset_levelLaw, ⟨fun c f => ?_, fun c f => ?_⟩, hstore, hwalk, Clock.reset_law⟩
  · simp [State.xp, State.chan, State.reset, resetXp, resetChan]
  · simp [State.chan, State.reset, resetChan]

end Sys2Proof.Machine
end

section
/-! PROOFS. What SAMPLE_PERIOD does before its sample: the due steps leave the lanes, the scenes and the owed work alone, and
lanes without a frame are judged. -/

namespace Sys2Proof.Machine

/-! ### The due steps -/

/-- What the steps that are due before a sample leave alone, and the sample or the boundary's work needs. -/
def State.awaiting (s : State) : List BoundaryUnit × Vector Lane 8 × Vector Int 64 × SceneStore :=
  (s.owed, s.lanes, s.samples, s.scenes)

section awaiting
variable (s : State)

@[simp] theorem State.setChan_awaiting (c : ChanId) (x : Chan) : (s.setChan c x).awaiting = s.awaiting := rfl
@[simp] theorem State.putChan_awaiting (c : ChanId) (r : Chan × List Event) : (s.putChan c r).awaiting = s.awaiting := rfl
@[simp] theorem State.setBoard_awaiting (b : BoardId) (x : Board) : (s.setBoard b x).awaiting = s.awaiting := rfl
@[simp] theorem State.setEx_awaiting (x : Exchange) : (s.setEx x).awaiting = s.awaiting := rfl
@[simp] theorem State.raise_awaiting (e : Event) : (s.raise e).awaiting = s.awaiting := rfl
@[simp] theorem State.freeLine_awaiting : s.freeLine.awaiting = s.awaiting := rfl
@[simp] theorem State.readbackFails_awaiting (b : BoardId) : (s.readbackFails b).awaiting = s.awaiting := rfl

theorem State.arbitrate_awaiting (first : Option ReqId) : (s.arbitrate first).awaiting = s.awaiting := by
  have hstart (r : ReqId) : (s.startFor r).awaiting = s.awaiting := by
    unfold State.startFor; split <;> rfl
  unfold State.arbitrate
  split
  · rfl
  · split
    · rfl
    · exact hstart _

theorem State.boardOffline_awaiting (b : BoardId) (e : LineError) : (s.boardOffline b e).awaiting = s.awaiting := by
  unfold State.boardOffline
  rw [State.raise_awaiting]
  exact foldl_keeps (fun _ _ => by simp) _ _

theorem State.txFails_awaiting (t : InFlight) (e : LineError) : (s.txFails t e).awaiting = s.awaiting := by
  unfold State.txFails State.stepFails
  cases t.kind <;> dsimp only <;> split <;> simp [State.boardOffline_awaiting]

theorem State.windowExpires_awaiting : s.windowExpires.awaiting = s.awaiting := by
  unfold State.windowExpires
  split
  · rfl
  · split <;> simp [State.txFails_awaiting]

theorem State.chanDue_awaiting (c : ChanId) : (s.chanDue c).awaiting = s.awaiting := by
  have hforce (t : State) : (t.forceStep c).awaiting = t.awaiting := by unfold State.forceStep; split <;> rfl
  have hramp (t : State) : (t.finishRamp c).awaiting = t.awaiting := by unfold State.finishRamp; split <;> rfl
  have happly (t : State) : (t.applyPending c).awaiting = t.awaiting := by unfold State.applyPending; split <;> rfl
  rw [State.chanDue, happly, hramp, hforce]

/-- What is due before the sample leaves the lanes, their samples, the scenes and the owed work alone. -/
theorem State.catchUp_awaiting : s.catchUp.awaiting = s.awaiting := by
  unfold State.catchUp
  split
  · rfl
  · rw [State.arbitrate_awaiting, State.windowExpires_awaiting, foldl_keeps (g := State.awaiting) State.chanDue_awaiting,
      State.setEx_awaiting]

end awaiting

/-! ### Lanes without a frame -/

/-- The record of a lane that has received no frame in the period, once it is judged (R23, R24). -/
def Lane.missed : Lane := { fault := true, run := 0, judged := true }

/-- A lane's INPUT event, raised only where it was IN_SYNC (R24). -/
def State.missedEvent (s : State) (g : LaneId) : List Event :=
  if s.lanes[g.val].judged = false ∧ s.lanes[g.val].fault = false then [.input g true] else []

/-- The state with the frames of some lanes judged as missing: those that have been judged keep their record and their
samples. -/
def State.withMissed (s : State) (l : List LaneId) : State :=
  { s with
    lanes := tab fun g => if g ∈ l ∧ s.lanes[g.val].judged = false then Lane.missed else s.lanes[g.val]
    samples := tab fun c => if boardOf c ∈ l ∧ s.lanes[(boardOf c).val].judged = false then 0 else s.samples[c.val]
    ex := s.ex.joinAll s.frame (l.flatMap s.missedEvent) }

section missed
variable (s : State) (l : List LaneId)

@[simp] theorem State.withMissed_lane (g : LaneId) : (s.withMissed l).lanes[g.val] =
    if g ∈ l ∧ s.lanes[g.val].judged = false then Lane.missed else s.lanes[g.val] := tab_get _ g

@[simp] theorem State.withMissed_sample (c : ChanId) : (s.withMissed l).samples[c.val] =
    if boardOf c ∈ l ∧ s.lanes[(boardOf c).val].judged = false then 0 else s.samples[c.val] := tab_get _ c

@[simp] theorem State.withMissed_ex : (s.withMissed l).ex = s.ex.joinAll s.frame (l.flatMap s.missedEvent) := rfl

/-! The fields that missing frames leave alone. -/

@[simp] theorem State.withMissed_frame : (s.withMissed l).frame = s.frame := rfl
@[simp] theorem State.withMissed_owed : (s.withMissed l).owed = s.owed := rfl

end missed

/-- A state that differs from another in what missing frames change is that state with the missing frames. -/
theorem State.eq_withMissed {s t : State} {l : List LaneId}
    (ht : t = { s with lanes := t.lanes, samples := t.samples, ex := t.ex })
    (hl : ∀ g : LaneId, t.lanes[g.val] = (s.withMissed l).lanes[g.val])
    (hs : ∀ c : ChanId, t.samples[c.val] = (s.withMissed l).samples[c.val])
    (he : t.ex = (s.withMissed l).ex) : t = s.withMissed l := by
  rw [ht, Vector.ext fun i hi => hl ⟨i, hi⟩, Vector.ext fun i hi => hs ⟨i, hi⟩, he]
  rfl

/-- One lane's missing frame. -/
theorem State.judgeLane_missing (s : State) (g : LaneId) : s.judgeLane g .missing = s.withMissed [g] := by
  unfold State.judgeLane
  simp only [Fin.getElem_fin]
  split
  · next hj =>
    refine State.eq_withMissed rfl (fun h => ?_) (fun c => ?_) ?_
    · have e : ¬ (h = g ∧ s.lanes[h.val].judged = false) := by rintro ⟨rfl, h0⟩; simp [hj] at h0
      simp [e]
    · have e : ¬ (boardOf c = g ∧ s.lanes[(boardOf c).val].judged = false) := by rintro ⟨rfl, h0⟩; simp [hj] at h0
      simp [e]
    · simp [State.missedEvent, hj]
  · next hj =>
    have hj : s.lanes[g.val].judged = false := by simpa using hj
    refine State.eq_withMissed rfl (fun h => ?_) (fun c => ?_) ?_
    · rw [State.raiseAll_lanes, upd_get, State.withMissed_lane]
      by_cases e : g = h
      · subst e; simp [hj, Lane.receive, LaneInputGood, Lane.missed]
      · simp [e, Ne.symm e]
    · rw [State.raiseAll_samples, tab_get, State.withMissed_sample]
      by_cases e : boardOf c = g
      · simp [e, hj, frameSample]
      · simp [e]
    · cases hf : s.lanes[g.val].fault <;> simp [Lane.receive, LaneInputGood, State.missedEvent, hj, hf]

/-- Frames missing of one lane and then of others are missing of all of them. -/
theorem State.withMissed_cons (s : State) {g : LaneId} {l : List LaneId} (hg : g ∉ l) :
    (s.withMissed [g]).withMissed l = s.withMissed (g :: l) := by
  have hne {h : LaneId} (hh : h ∈ l) : h ≠ g := fun e => hg (e ▸ hh)
  refine State.eq_withMissed rfl (fun h => ?_) (fun c => ?_) ?_
  · by_cases hh : h ∈ l
    · simp [hh, hne hh]
    · simp [hh]
  · by_cases hh : boardOf c ∈ l
    · simp [hh, hne hh]
    · simp [hh]
  · have hevents : l.flatMap (s.withMissed [g]).missedEvent = l.flatMap s.missedEvent :=
      List.flatMap_congr fun h hh => by simp [State.missedEvent, hne hh]
    have happend := s.ex.joinAll_append s.frame ([g].flatMap s.missedEvent) (l.flatMap s.missedEvent)
    rw [State.withMissed_ex, hevents]
    simpa using happend.symm

/-- The missing frames of a period, all at once. -/
theorem State.missingFrames_eq (s : State) : s.missingFrames = s.withMissed (indices 8) := by
  have all (l : List LaneId) (hn : l.Nodup) (t : State) :
      l.foldl (fun u g => u.judgeLane g .missing) t = t.withMissed l := by
    induction l generalizing t with
    | nil => exact State.eq_withMissed rfl (fun g => by simp) (fun c => by simp) rfl
    | cons g l ih =>
      rw [List.foldl_cons, State.judgeLane_missing, ih hn.of_cons, State.withMissed_cons _ (List.nodup_cons.1 hn).1]
  exact all _ (List.nodup_finRange 8) s

end Sys2Proof.Machine
end

section
/-! PROOFS. The sample of a period, field by field: the outputs, the crosspoints and channels after it, and its frames. -/

namespace Sys2Proof.Machine

/-! ### The fields of a sample -/

/-- The sample once every lane has been judged: the outputs, the watches and the frames. -/
def State.sampled (s : State) : State := s.computeSample.watchAll.sendFrames

theorem State.takeSample_eq (s : State) : s.takeSample = (s.withMissed (indices 8)).sampled := by
  rw [State.takeSample, State.missingFrames_eq]; rfl

section sampled
variable (s : State)

@[simp] theorem State.sampled_output (c : ChanId) (f : Feed) : s.sampled.outputs[c.val].get f = (s.xpSample c f).1 := by
  simp only [State.sampled, State.sendFrames, State.watchAll, State.computeSample, State.raiseAll_outputs, tab_get,
    PerFeed.of_get]

@[simp] theorem State.sampled_xp (c : ChanId) (f : Feed) : s.sampled.xp c f = s.xpAfter c f := by
  simp only [State.xp, State.sampled, State.sendFrames, State.watchAll, State.computeSample, State.raiseAll_xps,
    Fin.getElem_fin, tab_get, PerFeed.of_get]

@[simp] theorem State.sampled_chan (c : ChanId) : s.sampled.chan c = (s.chan c).watch s.samples[c.val] := by
  simp only [State.chan, State.sampled, State.sendFrames, State.watchAll, State.computeSample, State.raiseAll_chans,
    State.raiseAll_samples, Fin.getElem_fin, tab_get]

@[simp] theorem State.sampled_line : s.sampled.line = s.line.map InFlight.age := by
  simp only [State.sampled, State.sendFrames, State.watchAll, State.computeSample, State.raiseAll_line]

@[simp] theorem State.sampled_ex : s.sampled.ex = s.latchReply.joinAll s.frame s.limitEvents := by
  simp only [State.sampled, State.sendFrames, State.watchAll, State.computeSample, State.raiseAll_ex]

@[simp] theorem State.sampled_frame : s.sampled.frame = s.frame := by
  simp only [State.sampled, State.sendFrames, State.watchAll, State.computeSample, State.raiseAll_frame]

@[simp] theorem State.sampled_owed : s.sampled.owed = s.owed := by
  simp only [State.sampled, State.sendFrames, State.watchAll, State.computeSample, State.raiseAll_owed]

@[simp] theorem State.sampled_lanes : s.sampled.lanes = s.lanes := by
  simp only [State.sampled, State.sendFrames, State.watchAll, State.computeSample, State.raiseAll_lanes]

@[simp] theorem State.sampled_samples : s.sampled.samples = s.samples := by
  simp only [State.sampled, State.sendFrames, State.watchAll, State.computeSample, State.raiseAll_samples]

@[simp] theorem State.sampled_slots : s.sampled.slots = s.slots := by
  simp only [State.sampled, State.sendFrames, State.watchAll, State.computeSample, State.raiseAll_slots]

@[simp] theorem State.sampled_blocks : s.sampled.blocks = s.blocks := by
  simp only [State.sampled, State.sendFrames, State.watchAll, State.computeSample, State.raiseAll_blocks]

@[simp] theorem State.sampled_scenes : s.sampled.scenes = s.scenes := by
  simp only [State.sampled, State.sendFrames, State.watchAll, State.computeSample, State.raiseAll_scenes]

@[simp] theorem State.sampled_clock : s.sampled.clock = s.clock := by
  simp only [State.sampled, State.sendFrames, State.watchAll, State.computeSample, State.raiseAll_clock]

@[simp] theorem State.sampled_boards : s.sampled.boards = s.boards := by
  simp only [State.sampled, State.sendFrames, State.watchAll, State.computeSample, State.raiseAll_boards]

@[simp] theorem State.sampled_ports : s.sampled.ports = s.ports := by
  simp only [State.sampled, State.sendFrames, State.watchAll, State.computeSample, State.raiseAll_ports]

/-- A frame that is sent is built from what stands beside the frames. -/
theorem State.sendFrames_buildFrame (f : Feed) : s.sendFrames.buildFrame f = s.buildFrame f := rfl

/-- Each port that is not OFF sends its feed's frame (R132, R138). -/
theorem State.sampled_portOut (p : Port) : s.sampled.portOut.get p =
    if (s.port p).state = .off then none else some (s.sampled.buildFrame (portFeed p)) := by
  have hport : s.computeSample.watchAll.port p = s.port p := by
    simp only [State.port, State.watchAll, State.computeSample, State.raiseAll_ports]
  rw [State.sampled, State.sendFrames_buildFrame, State.sendFrames, PerPort.of_get, hport]

end sampled

end Sys2Proof.Machine
end

section
/-! PROOFS. The control word of a frame, field by field (R134, R135, R183). -/

namespace Sys2Proof.Machine

/-- The bit of a flag. -/
theorem ofBool_getLsbD_zero (b : Bool) : (BitVec.ofBool b).getLsbD 0 = b := by cases b <;> rfl

/-- The fields of a control word: the unit, the boundary mark, the slot and the slot's status. -/
theorem State.controlWord_fields (s : State) (f : Feed) :
    (s.controlWord f).extractLsb' 29 3 = BitVec.ofNat 3 s.ex.unitId ∧
      (s.controlWord f).getLsbD 28 = (s.frame.toNat % Config.blockPeriods == 0) ∧
      (s.controlWord f).extractLsb' 22 6 = BitVec.ofNat 6 s.slotIndex.val ∧
      (s.controlWord f).extractLsb' 0 22 = s.slotStatus (s.slots.get f)[s.slotIndex] := by
  unfold State.controlWord
  refine ⟨?_, ?_, ?_, ?_⟩
  · refine (BitVec.extractLsb'_append_eq_of_le (by omega)).trans ?_
    refine (BitVec.extractLsb'_append_eq_of_le (by omega)).trans ?_
    exact BitVec.extractLsb'_append_eq_left
  · refine BitVec.getLsbD_append.trans ?_
    simp only [BitVec.getLsbD_append]
    exact ofBool_getLsbD_zero _
  · refine (BitVec.extractLsb'_append_eq_of_le (by omega)).trans ?_
    exact BitVec.extractLsb'_append_eq_right
  · exact BitVec.extractLsb'_append_eq_right

/-- A bit of a field. -/
theorem getLsbD_of_extract {w : Nat} {v : BitVec w} {n : Nat} {x : BitVec n} (h : v.extractLsb' 0 n = x) {i : Nat}
    (hi : i < n) : v.getLsbD i = x.getLsbD i := by
  rw [← h]; simp [hi]

/-- A field of a field. -/
theorem extract_of_extract {w : Nat} {v : BitVec w} {n : Nat} {x : BitVec n} (h : v.extractLsb' 0 n = x) {b m : Nat}
    (hm : b + m ≤ n) : v.extractLsb' b m = x.extractLsb' b m := by
  rw [← h, extract_extract _ _ _ _ _ hm, Nat.zero_add]

/-- The status of an empty slot. -/
theorem State.slotStatus_none (s : State) :
    (s.slotStatus none).extractLsb' 19 3 = 7#3 ∧ (s.slotStatus none).extractLsb' 0 19 = 0#19 :=
  ⟨BitVec.extractLsb'_append_eq_left, BitVec.extractLsb'_append_eq_right⟩

/-- The status of a slot that holds a channel. -/
theorem State.slotStatus_some (s : State) (c : ChanId) :
    (s.slotStatus (some c)).extractLsb' 19 3 = (ownerByte (s.chan c).owner).setWidth 3 ∧
      (s.slotStatus (some c)).extractLsb' 13 6 = BitVec.ofNat 6 c.val ∧
      (s.slotStatus (some c)).extractLsb' 7 6 = BitVec.ofInt 6 ((s.chan c).app.analog / 6) ∧
      (s.slotStatus (some c)).getLsbD 6 = (s.chan c).app.padIn ∧
      (s.slotStatus (some c)).extractLsb' 3 3 = BitVec.ofNat 3 (phantomCode (s.chan c).phantom) ∧
      (s.slotStatus (some c)).getLsbD 2 = s.lanes[boardOf c].fault ∧
      (s.slotStatus (some c)).getLsbD 1 = ((s.chan c).op == .suspect) ∧
      (s.slotStatus (some c)).getLsbD 0 = (s.chan c).startup := by
  simp only [State.slotStatus]
  refine ⟨?_, ?_, ?_, ?_, ?_, ?_, ?_, ?_⟩
  · simp only [BitVec.extractLsb'_append_eq_of_le, Nat.reduceLeDiff, Nat.reduceSub]
    exact BitVec.extractLsb'_eq_self
  · simp only [BitVec.extractLsb'_append_eq_of_le, Nat.reduceLeDiff, Nat.reduceSub]
    exact BitVec.extractLsb'_append_eq_right
  · simp only [BitVec.extractLsb'_append_eq_of_le, Nat.reduceLeDiff, Nat.reduceSub]
    exact BitVec.extractLsb'_append_eq_right
  · simp only [BitVec.getLsbD_append]; exact ofBool_getLsbD_zero _
  · simp only [BitVec.extractLsb'_append_eq_of_le, Nat.reduceLeDiff, Nat.reduceSub]
    exact BitVec.extractLsb'_append_eq_right
  · simp only [BitVec.getLsbD_append]; exact ofBool_getLsbD_zero _
  · simp only [BitVec.getLsbD_append]; exact ofBool_getLsbD_zero _
  · simp only [BitVec.getLsbD_append]; exact ofBool_getLsbD_zero _

/-- The watch of a sample leaves a channel SUSPECT or not as it was. -/
theorem Chan.watch_suspect (ch : Chan) (x : Int) : ((ch.watch x).op == .suspect) = (ch.op == .suspect) := by
  unfold Chan.watch
  dsimp only
  split
  · next h =>
    have hop : ch.op = .zcWait := by simp only [Bool.and_eq_true, beq_iff_eq] at h; exact h.1.1.1
    rw [hop]; rfl
  · rfl

/-- What a control word shows of a channel, the watch of a sample leaves alone. -/
theorem Chan.watch_shown (ch : Chan) (x : Int) : (ch.watch x).owner = ch.owner ∧ (ch.watch x).app = ch.app ∧
    (ch.watch x).phantom = ch.phantom ∧ (ch.watch x).startup = ch.startup := ⟨rfl, rfl, rfl, rfl⟩

/-- The reply that a sample forms changes the record in hand alone. -/
theorem State.latchReply_frame (s : State) : s.latchReply = { s.ex with inHand := s.latchReply.inHand } := by
  unfold State.latchReply
  split
  · rfl
  · split <;> rfl

/-- The control word is built from what stands before the sample: no watch changes what it shows. -/
theorem State.sampled_controlWord (s : State) (f : Feed) : s.sampled.controlWord f = s.controlWord f := by
  have hunit : s.sampled.ex.unitId = s.ex.unitId := by
    rw [State.sampled_ex, Exchange.joinAll_frame, State.latchReply_frame]
  have hslot : s.sampled.slotIndex = s.slotIndex := by simp only [State.slotIndex, State.sampled_frame]
  have hstatus (o : Option ChanId) : s.sampled.slotStatus o = s.slotStatus o := by
    cases o with
    | none => simp only [State.slotStatus]
    | some c =>
      obtain ⟨howner, happ, hphantom, hstartup⟩ := (s.chan c).watch_shown s.samples[c.val]
      simp only [State.slotStatus, State.sampled_chan, State.sampled_lanes, Chan.watch_suspect, howner, happ, hphantom,
        hstartup]
  simp only [State.controlWord, hunit, hslot, hstatus, State.sampled_frame, State.sampled_slots]

end Sys2Proof.Machine
end

section
/-! PROOFS. What the boundary work that is left to SAMPLE_PERIOD can do to the channels, the crosspoints, the block records and
the ports (R98, R108, R122, R149). -/

namespace Sys2Proof.Machine

/-! ### Induction over the boundary work -/

/-- The Scene Store's work touches nothing but the banks and the events. -/
theorem State.sceneBoundary_cases (s : State) :
    s.sceneBoundary = s ∨ s.sceneBoundary = { s.exchangeBanks with ex := s.sceneBoundary.ex } := by
  by_cases h : s.scenes.mask = 0#64
  · exact .inl (by rw [State.sceneBoundary, if_pos h])
  · exact .inr (by rw [State.sceneBoundary, if_neg h]; rfl)

/-- The Feed Ports' work touches the ports and the events alone. -/
theorem State.portsBoundary_frame (s : State) :
    s.portsBoundary = { s with ports := s.portsBoundary.ports, ex := s.portsBoundary.ex } :=
  List.foldlRecOn (motive := fun t : State => t = { s with ports := t.ports, ex := t.ex }) allPorts State.portBoundary rfl
    fun t ht p _ => by
      have hstep : State.portBoundary t p =
          { t with ports := (State.portBoundary t p).ports, ex := (State.portBoundary t p).ex } := rfl
      rw [hstep]
      generalize (State.portBoundary t p).ports = ports, (State.portBoundary t p).ex = ex
      rw [ht]

/-- The Clock Unit's work touches the clock record, the marks of timing and the events alone. -/
theorem State.clockBoundary_frame (s : State) (ph : PhaseInput) : s.clockBoundary ph = { s with
    clock := (s.clockBoundary ph).clock, ports := (s.clockBoundary ph).ports, ex := (s.clockBoundary ph).ex } := by
  unfold State.clockBoundary
  dsimp only
  rw [State.putClock_frame]

/-- What holds before a unit's work holds after it, if it does not speak of the clock, the exchange, the boards and the ports,
and the work on the channels and the banks keeps it. -/
theorem State.unitWork_induct {P : State → Prop} {ph : PhaseInput} {u : BoundaryUnit} {s : State}
    (hother : ∀ (t : State) owed clock ex boards ports, P t →
      P { t with owed := owed, clock := clock, ex := ex, boards := boards, ports := ports })
    (hmeter : u = .meterGuard → ∀ t c, P t → P (State.meterChan t c))
    (hscene : u = .sceneStore → ∀ t, P t → P t.exchangeBanks) (h : P s) : P (s.unitWork u ph) := by
  cases u with
  | meterGuard => exact List.foldlRecOn _ _ h fun t ht c _ => hmeter rfl t c ht
  | preampLine => exact hother s _ _ _ _ _ h
  | sceneStore =>
    change P s.sceneBoundary
    rcases s.sceneBoundary_cases with he | he <;> rw [he]
    · exact h
    · exact hother _ _ _ _ _ _ (hscene rfl s h)
  | feedPorts =>
    change P s.portsBoundary
    rw [State.portsBoundary_frame]
    exact hother s _ _ _ _ _ h
  | exchange => exact hother s _ _ _ _ _ h
  | clock =>
    change P (s.clockBoundary ph)
    rw [State.clockBoundary_frame]
    exact hother s _ _ _ _ _ h

theorem State.meterChan_owed (s : State) (c : ChanId) : (s.meterChan c).owed = s.owed := by
  obtain ⟨ch, -, he⟩ := s.meterChan_cases c
  rw [he]

/-- A unit's work leaves what is owed alone. -/
theorem State.unitWork_owed (s : State) (u : BoundaryUnit) (ph : PhaseInput) : (s.unitWork u ph).owed = s.owed := by
  cases u with
  | meterGuard => exact foldl_keeps (g := State.owed) State.meterChan_owed _ _
  | preampLine => rfl
  | sceneStore =>
    change s.sceneBoundary.owed = s.owed
    rcases s.sceneBoundary_cases with he | he <;> rw [he]
    rw [State.exchangeBanks_frame]
  | feedPorts =>
    change s.portsBoundary.owed = s.owed
    rw [State.portsBoundary_frame]
  | exchange => rfl
  | clock =>
    change (s.clockBoundary ph).owed = s.owed
    rw [State.clockBoundary_frame]

/-- What the work of every unit that is named and owes its work keeps, the boundary work keeps. -/
theorem State.boundaryWork_induct {P : State → Prop} {us : List BoundaryUnit} {ph : PhaseInput} {s : State}
    (howed : ∀ (t : State) owed, P t → P { t with owed := owed })
    (hunit : ∀ (t : State) u, u ∈ us → s.owed.contains u = true → P t → P (t.unitWork u ph)) (h : P s) :
    P (s.boundaryWork us ph) := by
  have hboth : P (s.boundaryWork us ph) ∧
      ∀ v, (s.boundaryWork us ph).owed.contains v = true → s.owed.contains v = true := by
    refine List.foldlRecOn (motive := fun t : State => P t ∧ ∀ v, t.owed.contains v = true → s.owed.contains v = true)
      us _ ⟨h, fun v hv => hv⟩ fun t ht u hu => ?_
    obtain ⟨ht, hsub⟩ := ht
    unfold State.unitBoundary
    split
    · next hc =>
      refine ⟨hunit _ u hu (hsub u hc) (howed t _ ht), fun v hv => hsub v ?_⟩
      rw [State.unitWork_owed] at hv
      simp only [List.contains_iff_mem, List.mem_filter] at hv ⊢
      exact hv.1
    · exact ⟨ht, hsub⟩
  exact hboth.1

/-- The boundary work that is left to SAMPLE_PERIOD, up to the close of a meter interval and the poll's trigger. -/
def State.boundaryMade (s : State) : State :=
  (indices 8).foldl State.retryReadback (s.boundaryWork allUnits (freePhase s.frame)).clockSettled

/-- Nothing of it is made where nothing is due. -/
theorem State.boundaryRest_eq (s : State) :
    s.boundaryRest = if s.calmAfter then s else s.boundaryMade.exchangeSettled := rfl

/-- The retries of readbacks touch the boards alone. -/
theorem State.retries_frame (s : State) (l : List BoardId) :
    l.foldl State.retryReadback s = { s with boards := (l.foldl State.retryReadback s).boards } :=
  List.foldlRecOn (motive := fun t : State => t = { s with boards := t.boards }) l _ rfl fun t ht b _ => by
    have hstep : t.retryReadback b = { t with boards := (t.retryReadback b).boards } := by
      unfold State.retryReadback; split <;> rfl
    rw [hstep]
    generalize (t.retryReadback b).boards = boards
    rw [ht]

/-- Beside the units' work, the boundary work that is left to SAMPLE_PERIOD touches the clock, the exchange and the boards
alone. -/
theorem State.boundaryMade_frame (s : State) : ∃ clock ex boards,
    s.boundaryMade = { s.boundaryWork allUnits (freePhase s.frame) with clock := clock, ex := ex, boards := boards } := by
  unfold State.boundaryMade
  generalize s.boundaryWork allUnits (freePhase s.frame) = t
  rw [State.retries_frame]
  generalize ((indices 8).foldl State.retryReadback t.clockSettled).boards = boards
  exact ⟨t.clockSettled.clock, t.clockSettled.ex, boards, by rw [State.clockSettled_frame]⟩

/-- What the guards and the swap keep, each where it is owed, the boundary work that is left to SAMPLE_PERIOD keeps. -/
theorem State.boundaryMade_induct {P : State → Prop} {s : State}
    (hother : ∀ (t : State) owed clock ex boards ports, P t →
      P { t with owed := owed, clock := clock, ex := ex, boards := boards, ports := ports })
    (hmeter : s.owed.contains .meterGuard = true → ∀ t c, P t → P (State.meterChan t c))
    (hscene : s.owed.contains .sceneStore = true → ∀ t, P t → P t.exchangeBanks) (h : P s) : P s.boundaryMade := by
  have hwork : P (s.boundaryWork allUnits (freePhase s.frame)) :=
    State.boundaryWork_induct (fun t owed ht => hother t owed _ _ _ _ ht)
      (fun t u _ hu ht => State.unitWork_induct hother (fun e => hmeter (e ▸ hu)) (fun e => hscene (e ▸ hu)) ht) h
  obtain ⟨clock, ex, boards, he⟩ := s.boundaryMade_frame
  rw [he]
  exact hother _ _ _ _ _ _ hwork

/-- The close of a meter interval touches the interval records, the saturation marks and the exchange alone. -/
theorem State.closeInterval_frame (s : State) : s.closeInterval = { s with
    intervals := s.closeInterval.intervals, xps := s.closeInterval.xps, ex := s.closeInterval.ex } := by
  unfold State.closeInterval; split <;> rfl

/-- The crosspoints at a close: their saturation marks are cleared (R101). -/
theorem State.closeInterval_xp (s : State) (c : ChanId) (f : Feed) :
    s.closeInterval.xp c f = { s.xp c f with satSeen := !s.closeDue && (s.xp c f).satSeen } := by
  unfold State.closeInterval
  split
  · next h => simp only [State.xp, Fin.getElem_fin, tab_get, PerFeed.of_get, h, Bool.not_true, Bool.false_and]
  · next h => simp only [Bool.not_eq_true] at h; rw [h]; rfl

/-! ### Channels -/

/-- What no new target moves in a channel's record: the applied setting, the phantom supply with its ramp, the start-up flag,
the last sign, and whether the channel is SUSPECT. -/
def Chan.untargeted (ch : Chan) : Setting × PhantomState × Nat × Bool × Bool × Bool :=
  (ch.app, ch.phantom, ch.ramp, ch.startup, ch.lastNeg, ch.op == .suspect)

theorem Chan.enterZc_untargeted {ch : Chan} (h : ch.op ≠ .suspect) : ch.enterZc.untargeted = ch.untargeted := by
  simp [Chan.untargeted, Chan.enterZc, h]

theorem Chan.closeIdle_untargeted (c : ChanId) {ch : Chan} (h : ch.op ≠ .suspect) :
    (ch.closeIdle c).1.untargeted = ch.untargeted := by
  simp [Chan.untargeted, Chan.closeIdle, Chan.close, h]

/-- The response to a target moves none of it: a channel that is SUSPECT stays so, and no other becomes so (R79). -/
theorem Chan.respond_untargeted (c : ChanId) (t : Option Half) (ch : Chan) :
    (ch.respond c t).1.untargeted = ch.untargeted := by
  have hopen : ch.op ≠ .suspect → (ch.opening t).enterZc.untargeted = ch.untargeted :=
    fun h => (Chan.enterZc_untargeted (ch := ch.opening t) h).trans rfl
  unfold Chan.respond
  split
  case h_1 hop =>
    split
    · rfl
    · exact hopen (by simp [hop])
  case h_2 hop | h_3 hop =>
    split
    · exact Chan.closeIdle_untargeted c (by simp [hop])
    · rfl
  case h_4 => repeat' (first | rfl | split)
  case h_5 => rfl
  case h_6 => split <;> rfl

theorem Chan.requestTarget_untargeted (c : ChanId) (t : Option Half) (x : Setting) (ch : Chan) :
    (ch.requestTarget c t x).1.untargeted = ch.untargeted :=
  Chan.respond_untargeted c t (ch.record t x)

theorem Chan.guardTarget_untargeted (c : ChanId) (x : Setting) (ch : Chan) :
    (ch.guardTarget c x).1.untargeted = ch.untargeted := by
  unfold Chan.guardTarget
  dsimp only
  split
  · rfl
  · exact Chan.respond_untargeted c none { ch with tgt := x }

theorem State.Guarded.untargeted {s : State} {c : ChanId} {ch : Chan} (h : s.Guarded c ch) :
    ch.untargeted = (s.chan c).untargeted := by
  rcases h with rfl | ⟨_, rfl⟩
  · rfl
  · exact Chan.guardTarget_untargeted c _ _

/-- The boundary work retargets the channels at most. -/
theorem State.boundaryMade_untargeted (s : State) (c : ChanId) :
    (s.boundaryMade.chan c).untargeted = (s.chan c).untargeted := by
  refine State.boundaryMade_induct (P := fun t => (t.chan c).untargeted = (s.chan c).untargeted)
    (fun t _ _ _ _ _ ht => ht) (fun _ t d ht => ?_) (fun _ t ht => ?_) rfl
  · obtain ⟨ch, hg, he⟩ := t.meterChan_cases d
    have hchan : (t.meterChan d).chan c = if d = c then ch else t.chan c := by
      rw [he]; exact upd_get _ _ _ _
    rw [hchan]
    split
    · next e => subst e; exact hg.untargeted.trans ht
    · exact ht
  · rw [State.exchangeBanks_chan]
    split
    · exact (Chan.requestTarget_untargeted c _ _ _).trans ht
    · exact ht

/-- Where neither the guards nor a swap are owed, it leaves the channels alone. -/
theorem State.boundaryMade_chans {s : State} (hm : s.owed.contains .meterGuard = false)
    (hs : s.owed.contains .sceneStore = false) : s.boundaryMade.chans = s.chans :=
  State.boundaryMade_induct (P := fun t => t.chans = s.chans) (fun _ _ _ _ _ _ ht => ht)
    (fun h => absurd (hm.symm.trans h) Bool.false_ne_true) (fun h => absurd (hs.symm.trans h) Bool.false_ne_true) rfl

/-! ### Crosspoints -/

theorem State.meterChan_xps (s : State) (c : ChanId) : (s.meterChan c).xps = s.xps := by
  obtain ⟨ch, -, he⟩ := s.meterChan_cases c
  rw [he]

/-- The boundary work leaves the saturation marks alone. -/
theorem State.boundaryMade_satSeen (s : State) (c : ChanId) (f : Feed) :
    (s.boundaryMade.xp c f).satSeen = (s.xp c f).satSeen := by
  refine State.boundaryMade_induct (P := fun t => (t.xp c f).satSeen = (s.xp c f).satSeen)
    (fun t _ _ _ _ _ ht => ht) (fun _ t d ht => ?_) (fun _ t ht => ?_) rfl
  · rwa [State.xp, State.meterChan_xps]
  · rw [State.exchangeBanks_xp]
    split
    · exact ht
    · exact ht

/-- The boundary work leaves the crosspoints of a channel alone that no swap waits for. -/
theorem State.boundaryMade_xp {s : State} {c : ChanId} (f : Feed)
    (hc : s.owed.contains .sceneStore = false ∨ (s.scenes.mask &&& s.scenes.loaded).getLsbD c.val = false) :
    s.boundaryMade.xp c f = s.xp c f := by
  let P (t : State) : Prop := t.xp c f = s.xp c f ∧
    (s.owed.contains .sceneStore = true → (t.scenes.mask &&& t.scenes.loaded).getLsbD c.val = false)
  refine (State.boundaryMade_induct (P := P) (fun t _ _ _ _ _ ht => ht) (fun _ t d ht => ?_) (fun ho t ht => ?_)
    ⟨rfl, fun ho => hc.resolve_left fun h => Bool.false_ne_true (h.symm.trans ho)⟩).1
  · obtain ⟨ch, -, he⟩ := t.meterChan_cases d
    have hscenes : (t.meterChan d).scenes = t.scenes := by rw [he]
    exact ⟨by rw [State.xp, State.meterChan_xps]; exact ht.1, by rw [hscenes]; exact ht.2⟩
  · have hswap : t.swapped c = false := by
      have := ht.2 ho
      simpa only [State.swapped, inMask, BitVec.getLsbD_and] using this
    refine ⟨by rw [State.exchangeBanks_xp, hswap]; exact ht.1, fun _ => ?_⟩
    have hmask : t.exchangeBanks.scenes.mask = 0#64 := rfl
    simp [hmask]

/-! ### The line and the block records -/

/-- The boundary work leaves the line alone. -/
theorem State.boundaryMade_line (s : State) : s.boundaryMade.line = s.line := by
  refine State.boundaryMade_induct (P := fun t => t.line = s.line) (fun t _ _ _ _ _ ht => ht) (fun _ t d ht => ?_)
    (fun _ t ht => ?_) rfl
  · obtain ⟨ch, -, he⟩ := t.meterChan_cases d
    rw [he]
    exact ht
  · rw [State.exchangeBanks_frame]
    exact ht

theorem State.meterChan_block (s : State) (c d : ChanId) :
    (s.meterChan c).blocks[d.val] = if c = d then resetBlock else s.blocks[d.val] := by
  obtain ⟨ch, -, he⟩ := s.meterChan_cases c
  rw [he]
  exact upd_get _ _ _ _

/-- The Meter and Guard Unit's work clears every block record (R98). -/
theorem State.meterBoundary_block (s : State) (c : ChanId) : s.meterBoundary.blocks[c.val] = resetBlock := by
  have hfold (l : List ChanId) (t : State) (h : c ∈ l ∨ t.blocks[c.val] = resetBlock) :
      (l.foldl State.meterChan t).blocks[c.val] = resetBlock := by
    induction l generalizing t with
    | nil => exact h.resolve_left List.not_mem_nil
    | cons d l ih =>
      refine ih _ ?_
      rw [State.meterChan_block]
      by_cases e : d = c
      · exact .inr (if_pos e)
      · rw [if_neg e]
        exact h.imp_left fun h => (List.mem_cons.1 h).resolve_left (Ne.symm e)
  exact hfold _ _ (.inl (mem_indices c))

/-- The boundary work clears the block records where the Meter and Guard Unit owes its work, and leaves them otherwise. -/
theorem State.boundaryMade_block (s : State) (c : ChanId) : s.boundaryMade.blocks[c.val] =
    if s.owed.contains .meterGuard then resetBlock else s.blocks[c.val] := by
  have hbanks (t : State) : t.exchangeBanks.blocks = t.blocks := by rw [State.exchangeBanks_frame]
  split
  · next ho =>
    let P (t : State) : Prop := t.blocks[c.val] = resetBlock
    have hother (t : State) (owed clock ex boards ports) (ht : P t) :
        P { t with owed := owed, clock := clock, ex := ex, boards := boards, ports := ports } := ht
    have hmeter (t : State) (d : ChanId) (ht : P t) : P (t.meterChan d) := by
      change (t.meterChan d).blocks[c.val] = resetBlock
      rw [State.meterChan_block]
      split
      · rfl
      · exact ht
    have hscene (t : State) (ht : P t) : P t.exchangeBanks := by
      change t.exchangeBanks.blocks[c.val] = resetBlock
      rw [hbanks]; exact ht
    have hfirst : P (State.unitBoundary (freePhase s.frame) s .meterGuard) := by
      unfold State.unitBoundary
      rw [if_pos ho]
      exact State.meterBoundary_block _ c
    have hsplit : s.boundaryWork allUnits (freePhase s.frame) =
        (State.unitBoundary (freePhase s.frame) s .meterGuard).boundaryWork allUnits.tail (freePhase s.frame) := by
      simp only [State.boundaryWork, allUnits, List.foldl_cons, List.tail_cons]
    have hwork : P (s.boundaryWork allUnits (freePhase s.frame)) := by
      rw [hsplit]
      exact State.boundaryWork_induct (P := P) (fun t owed ht => hother t owed _ _ _ _ ht)
        (fun t u _ _ ht => State.unitWork_induct hother (fun _ => hmeter) (fun _ => hscene) ht) hfirst
    obtain ⟨clock, ex, boards, he⟩ := s.boundaryMade_frame
    rw [he]
    exact hwork
  · next ho =>
    exact State.boundaryMade_induct (P := fun t => t.blocks[c.val] = s.blocks[c.val]) (fun t _ _ _ _ _ ht => ht)
      (fun h => absurd h ho) (fun _ t ht => by rw [hbanks]; exact ht) rfl

/-! ### Ports -/

/-- Neither a verdict nor the start of judging brings a port into OFF or out of it. -/
theorem PortRec.boundary_off (port : Port) (p : PortRec) : (p.boundary port).1.state = .off ↔ p.state = .off := by
  by_cases hoff : p.state = .off
  · simp [PortRec.boundary, hoff]
  · by_cases hj : p.judging = true
    · rw [PortRec.boundary_judging port p hoff hj]
      have hcounted : ((p.recordWord p.verdict).updateCounts p.verdict).state = p.state := by
        rw [PortRec.updateCounts_frame, PortRec.recordWord_frame]
      have hmove (q : PortRec) (hq : q.state ≠ .off) : q.transition.1.state ≠ .off := by
        cases hs : q.state with
        | off => exact absurd hs hq
        | seeking => rw [PortRec.transition_seeking q (.inl hs)]; split <;> simp [hs]
        | down => rw [PortRec.transition_seeking q (.inr hs)]; split <;> simp [hs]
        | up => rw [PortRec.transition_up q hs]; split <;> simp [hs]
        | degraded => rw [PortRec.transition_degraded q hs]; split <;> [simp; split <;> simp [hs]]
      simp only [PortRec.judge, hoff, iff_false]
      exact hmove _ (by rw [hcounted]; exact hoff)
    · simp [PortRec.boundary, hoff, hj]

/-- The ports that are OFF. -/
def State.portsOff (s : State) : Port → Bool := fun p => (s.port p).state == .off

theorem State.portsOff_of_ports {s t : State} (h : t.ports = s.ports) : t.portsOff = s.portsOff := by
  funext p; rw [State.portsOff, State.port, h]; rfl

theorem State.portBoundary_portsOff (s : State) (p : Port) : (State.portBoundary s p).portsOff = s.portsOff := by
  funext q
  have hport : (State.portBoundary s p).port q = if p = q then ((s.port p).boundary p).1 else s.port q :=
    State.setPort_port s p q _
  rw [State.portsOff, hport, State.portsOff]
  split
  · next e => subst e; rw [Bool.eq_iff_iff, beq_iff_eq, beq_iff_eq]; exact PortRec.boundary_off p _
  · rfl

theorem State.unitWork_portsOff (s : State) (u : BoundaryUnit) (ph : PhaseInput) :
    (s.unitWork u ph).portsOff = s.portsOff := by
  cases u with
  | meterGuard =>
    refine State.portsOff_of_ports (foldl_keeps (g := State.ports) (fun t c => ?_) _ _)
    obtain ⟨ch, -, he⟩ := t.meterChan_cases c
    rw [he]
  | preampLine => rfl
  | sceneStore =>
    refine State.portsOff_of_ports ?_
    change s.sceneBoundary.ports = s.ports
    rcases s.sceneBoundary_cases with he | he <;> rw [he]
    rw [State.exchangeBanks_frame]
  | feedPorts => exact foldl_keeps (g := State.portsOff) State.portBoundary_portsOff _ _
  | exchange => rfl
  | clock =>
    funext p
    have hports : ((s.clockBoundary ph).port p).state = (s.port p).state := by
      unfold State.clockBoundary
      dsimp only
      rw [State.putClock_frame]
      cases p <;> rfl
    exact congrArg (· == LinkState.off) hports

/-- The boundary work brings no port into OFF or out of it. -/
theorem State.boundaryMade_portsOff (s : State) : s.boundaryMade.portsOff = s.portsOff := by
  have hwork : (s.boundaryWork allUnits (freePhase s.frame)).portsOff = s.portsOff :=
    State.boundaryWork_induct (P := fun t => t.portsOff = s.portsOff) (fun _ _ ht => ht)
      (fun t u _ _ ht => (t.unitWork_portsOff u _).trans ht) rfl
  obtain ⟨clock, ex, boards, he⟩ := s.boundaryMade_frame
  exact (State.portsOff_of_ports (by rw [he])).trans hwork

end Sys2Proof.Machine
end

section
/-! PROOFS. The outputs and frames of SAMPLE_PERIOD (R7, R19, R132, R133, R136, R152, R153). -/

namespace Sys2Proof.Machine

/-! ### The range of an output -/

theorem stageSaturate_range (y : Int) : minSample ≤ (stageSaturate y).1 ∧ (stageSaturate y).1 ≤ maxSample := by
  unfold stageSaturate minSample maxSample
  split
  · decide
  · split
    · decide
    · dsimp only; omega

theorem stageInvert_range (invert : Bool) {y : Int} (h : minSample ≤ y ∧ y ≤ maxSample) :
    minSample ≤ (stageInvert invert y).1 ∧ (stageInvert invert y).1 ≤ maxSample := by
  unfold stageInvert
  unfold minSample maxSample at *
  split
  · split
    · decide
    · dsimp only; omega
  · exact h

/-- A muted output is 0 (R17). -/
theorem sampleOut_muted (x g : Int) (invert : Bool) : (sampleOut x g invert true).1 = 0 := rfl

/-- Every output lies in the sample range (R15, R16, R19). -/
theorem sampleOut_range (x g : Int) (invert muted : Bool) :
    minSample ≤ (sampleOut x g invert muted).1 ∧ (sampleOut x g invert muted).1 ≤ maxSample := by
  have h := stageInvert_range invert (stageSaturate_range (stageScale x g))
  cases muted with
  | true => rw [sampleOut_muted]; decide
  | false => exact h

/-- A delivered zero sounds as 0 at every gain, since half a step is never rounded up to a whole one (R14). -/
theorem stageScale_zero (g : Int) : stageScale 0 (clampGain g) = 0 := by
  have hshift : 1 ≤ stageShift (clampGain g) := by
    unfold stageShift stageE clampGain; omega
  obtain ⟨n, hn⟩ := Nat.exists_eq_add_of_le' hshift
  rw [stageScale, hn, Nat.add_sub_cancel, zero_mul, zero_add]
  exact Int.ediv_eq_zero_of_lt (by positivity) (pow_lt_pow_right₀ (by norm_num) (Nat.lt_succ_self n))

theorem sampleOut_zero (g : Int) (invert muted : Bool) : (sampleOut 0 (clampGain g) invert muted).1 = 0 := by
  simp only [sampleOut, stageScale_zero]
  cases invert <;> cases muted <;> rfl

/-! ### The end of a period -/

section boundaryRest
variable (s : State)

/-- The close of a meter interval and the poll's trigger leave all but the interval records, the saturation marks and the
exchange alone. -/
theorem State.exchangeSettled_frame : s.exchangeSettled = { s with
    intervals := s.exchangeSettled.intervals, xps := s.exchangeSettled.xps, ex := s.exchangeSettled.ex } := by
  unfold State.exchangeSettled
  rw [State.closeInterval_frame]
  rfl

theorem State.exchangeSettled_xp (c : ChanId) (f : Feed) :
    s.exchangeSettled.xp c f = { s.xp c f with satSeen := !s.closeDue && (s.xp c f).satSeen } :=
  s.closeInterval_xp c f

theorem State.boundaryRest_chan_untargeted (c : ChanId) : (s.boundaryRest.chan c).untargeted = (s.chan c).untargeted := by
  rw [State.boundaryRest_eq]
  split
  · rfl
  · have hchans : s.boundaryMade.exchangeSettled.chans = s.boundaryMade.chans := by rw [State.exchangeSettled_frame]
    rw [State.chan, hchans]
    exact s.boundaryMade_untargeted c

theorem State.boundaryRest_portsOff : s.boundaryRest.portsOff = s.portsOff := by
  rw [State.boundaryRest_eq]
  split
  · rfl
  · refine (State.portsOff_of_ports ?_).trans s.boundaryMade_portsOff
    rw [State.exchangeSettled_frame]

/-- A crosspoint that no swap waits for keeps its record but for its saturation mark. -/
theorem State.boundaryRest_xp {c : ChanId} (f : Feed)
    (hc : s.owed.contains .sceneStore = false ∨ (s.scenes.mask &&& s.scenes.loaded).getLsbD c.val = false) :
    s.boundaryRest.xp c f = { s.xp c f with satSeen := (s.boundaryRest.xp c f).satSeen } := by
  rw [State.boundaryRest_eq]
  split
  · rfl
  · rw [State.exchangeSettled_xp, State.boundaryMade_xp f hc]

/-- What a sample leaves, beside the channels and the crosspoints, stands until the end of its period. -/
theorem State.boundaryRest_fields : s.boundaryRest.outputs = s.outputs ∧ s.boundaryRest.portOut = s.portOut ∧
    s.boundaryRest.samples = s.samples ∧ s.boundaryRest.lanes = s.lanes ∧ s.boundaryRest.slots = s.slots := by
  have h := s.boundaryRest_played
  simp only [State.played, Prod.mk.injEq] at h
  obtain ⟨h1, h2, _, h4, h5, h6⟩ := h
  exact ⟨h1, h2, h4, h5, h6⟩

end boundaryRest

section endPeriod
variable (s : State)

@[simp] theorem State.endPeriod_frame : s.endPeriod.frame = s.frame + 1#32 := by simp only [State.endPeriod]
@[simp] theorem State.endPeriod_samples : s.endPeriod.samples = s.samples := by simp only [State.endPeriod]
@[simp] theorem State.endPeriod_outputs : s.endPeriod.outputs = s.outputs := by simp only [State.endPeriod]
@[simp] theorem State.endPeriod_xps : s.endPeriod.xps = s.xps := by simp only [State.endPeriod]
@[simp] theorem State.endPeriod_slots : s.endPeriod.slots = s.slots := by simp only [State.endPeriod]
@[simp] theorem State.endPeriod_ports : s.endPeriod.ports = s.ports := by simp only [State.endPeriod]
@[simp] theorem State.endPeriod_portOut : s.endPeriod.portOut = s.portOut := by simp only [State.endPeriod]
@[simp] theorem State.endPeriod_line : s.endPeriod.line = s.line := by simp only [State.endPeriod]
@[simp] theorem State.endPeriod_ex : s.endPeriod.ex = s.ex := by simp only [State.endPeriod]

@[simp] theorem State.endPeriod_lane (g : LaneId) : s.endPeriod.lanes[g.val] = { s.lanes[g.val] with judged := false } := by
  simp only [State.endPeriod, tab_get, Fin.getElem_fin]

@[simp] theorem State.endPeriod_chan (c : ChanId) : s.endPeriod.chan c = { s.chan c with fresh := false } := by
  simp only [State.chan, State.endPeriod, tab_get, Fin.getElem_fin]

@[simp] theorem State.endPeriod_xp (c : ChanId) (f : Feed) : s.endPeriod.xp c f = s.xp c f := by
  rw [State.xp, State.endPeriod_xps, State.xp]

@[simp] theorem State.endPeriod_port (p : Port) : s.endPeriod.port p = s.port p := by
  rw [State.port, State.endPeriod_ports, State.port]

@[simp] theorem State.endPeriod_block (c : ChanId) : s.endPeriod.blocks[c.val] =
    s.blocks[c.val].sample s.samples[c.val] s.lanes[(boardOf c).val].fault ((s.chan c).op == .suspect) := by
  simp only [State.endPeriod, tab_get, Fin.getElem_fin]

/-- A boundary's work is owed where the new frame number is a multiple of 48 (R152, R153). -/
theorem State.endPeriod_owed : s.endPeriod.owed = if (s.frame + 1#32).toNat % 48 = 0 then
    [.meterGuard, .preampLine, .sceneStore, .feedPorts, .clock, .exchange] else [] := by
  simp only [State.endPeriod, isBoundary, Config.blockPeriods, beq_iff_eq, allUnits]

end endPeriod

end Sys2Proof.Machine
end

section
/-! PROOFS. O12: SAMPLE_PERIOD's outputs, lanes, frames and owed work. -/

namespace Sys2Proof.Machine

/-! ### The outputs of a sample, beside the records that stand when its period ends -/

section outputs
variable (b : State) (c : ChanId) (f : Feed)

/-- What a period ends with of a channel's mute and level is what its sample was computed from. -/
theorem State.sampledRest_chan : (b.sampled.boundaryRest.chan c).rampMute = (b.chan c).rampMute ∧
    (b.sampled.boundaryRest.chan c).startup = (b.chan c).startup ∧
    (b.sampled.boundaryRest.chan c).level = (b.chan c).level := by
  have h := b.sampled.boundaryRest_chan_untargeted c
  rw [State.sampled_chan] at h
  simp only [Chan.untargeted, Chan.watch, Prod.mk.injEq] at h
  obtain ⟨happ, hphantom, -, hstartup, -, -⟩ := h
  exact ⟨by rw [Chan.rampMute, hphantom, Chan.rampMute], hstartup, by rw [Chan.level, happ, Chan.level]⟩

theorem State.xpSample_muted (h : mutedAt (b.chan c) (b.xp c f) = true) : (b.xpSample c f).1 = 0 := by
  simp only [State.xpSample, h, sampleOut_muted]

theorem State.xpSample_zero (h : b.samples[c.val] = 0) : (b.xpSample c f).1 = 0 := by
  simp only [State.xpSample, Fin.getElem_fin, h, Xp.gain, sampleOut_zero]

/-- A crosspoint is silent while its channel ramps or has the start-up flag, and where its lane delivers 0 (R17). -/
theorem State.sampled_silent (h : (b.sampled.boundaryRest.chan c).rampMute = true ∨
    (b.sampled.boundaryRest.chan c).startup = true ∨ b.samples[c.val] = 0) :
    b.sampled.outputs[c.val].get f = 0 := by
  obtain ⟨hramp, hstartup, -⟩ := b.sampledRest_chan c
  rw [hramp, hstartup] at h
  rw [State.sampled_output]
  rcases h with h | h | h
  · exact b.xpSample_muted c f (by simp [mutedAt, h])
  · exact b.xpSample_muted c f (by simp [mutedAt, h])
  · exact b.xpSample_zero c f h

/-- The mute flag of a crosspoint that no swap waits for silences it, and its limited flag stands as its raw gain says
(R7, R17). -/
theorem State.sampledRest_xp
    (hc : b.owed.contains .sceneStore = false ∨ (b.scenes.mask &&& b.scenes.loaded).getLsbD c.val = false) :
    ((b.sampled.boundaryRest.xp c f).mute = true → b.sampled.outputs[c.val].get f = 0) ∧
    (b.sampled.boundaryRest.xp c f).limited =
      outOfRange ((b.sampled.boundaryRest.xp c f).raw (b.sampled.boundaryRest.chan c).level) := by
  have hx := b.sampled.boundaryRest_xp (c := c) f (by rwa [State.sampled_owed, State.sampled_scenes])
  rw [hx, State.sampled_xp, State.sampled_output, (b.sampledRest_chan c).2.2]
  exact ⟨fun hm => b.xpSample_muted c f (by simp [mutedAt, show (b.xp c f).mute = true from hm]), rfl⟩

end outputs

/-! ### The frames of a sample -/

/-- A slot of a frame carries the output its slot map names, or 0 (R132, R133, R136). -/
theorem State.buildFrame_slot (u : State) (f : Feed) (i : SlotId) : (u.buildFrame f).slots[i] =
    match (u.slots.get f)[i] with
    | none => 0
    | some c => u.outputs[c].get f := by
  rw [State.buildFrame, Fin.getElem_fin, tab_get]; rfl

/-- Each running port sends its feed's frame, and no other port sends, by the port states at the end of the period. -/
theorem State.sampledRest_portOut (b : State) (p : Port) : b.sampled.boundaryRest.portOut.get p =
    if (b.sampled.boundaryRest.port p).state = .off then none else some (b.sampled.buildFrame (portFeed p)) := by
  have hoff : ((b.sampled.boundaryRest.port p).state == .off) = ((b.port p).state == .off) := by
    refine (congrFun b.sampled.boundaryRest_portsOff p).trans ?_
    simp only [State.portsOff, State.port, State.sampled_ports]
  have hoff : (b.sampled.boundaryRest.port p).state = .off ↔ (b.port p).state = .off := by
    rw [← beq_iff_eq, hoff, beq_iff_eq]
  rw [b.sampled.boundaryRest_fields.2.1, State.sampled_portOut]
  simp only [hoff]

/-! ### The statement -/

/-- The state that SAMPLE_PERIOD's sample is computed from: what was due is done, and every lane is judged. -/
def State.before (s : State) : State := s.catchUp.withMissed (indices 8)

theorem exec_samplePeriod (s : State) : exec .samplePeriod s = .next s.before.sampled.boundaryRest.endPeriod := by
  rw [State.before, ← State.takeSample_eq]; rfl

section before
variable (s : State)

theorem State.before_frame : s.before.frame = s.frame := (State.still_iff.1 s.catchUp_still).2

/-- What was due leaves the lanes, the samples, the scenes and the owed work alone. -/
theorem State.catchUp_fields : s.catchUp.owed = s.owed ∧ s.catchUp.lanes = s.lanes ∧ s.catchUp.samples = s.samples ∧
    s.catchUp.scenes = s.scenes := by
  simpa only [State.awaiting, Prod.mk.injEq] using s.catchUp_awaiting

theorem State.before_owed : s.before.owed = s.owed := s.catchUp_fields.1

theorem State.before_scenes : s.before.scenes = s.scenes := s.catchUp_fields.2.2.2

/-- A lane whose frame is missing is in FAULT with a run of 0; one that was judged keeps its record (R22 to R24). -/
theorem State.before_lane (g : LaneId) : s.before.lanes[g.val] =
    if s.lanes[g.val].judged = true then s.lanes[g.val] else Lane.missed := by
  rw [State.before, State.withMissed_lane, s.catchUp_fields.2.1]
  cases s.lanes[g.val].judged <;> simp [mem_indices]

/-- A lane that was judged delivers what was judged, and one whose frame is missing zeros. -/
theorem State.before_sample (c : ChanId) : s.before.samples[c.val] =
    if s.lanes[(boardOf c).val].judged = true then s.samples[c.val] else 0 := by
  rw [State.before, State.withMissed_sample, s.catchUp_fields.2.1, s.catchUp_fields.2.2.1]
  cases s.lanes[(boardOf c).val].judged <;> simp [mem_indices]

end before

/-- The frame counter after a period's sample and its boundary work is still the period's. -/
theorem State.sampledRest_frame (b : State) : b.sampled.boundaryRest.frame = b.frame :=
  (State.still_iff.1 b.sampled.boundaryRest_still).2.trans b.sampled_frame

/-- Settles O12: the sample is computed from the state before it, and the boundary work after it moves neither its outputs
and frames nor what makes a channel silent. -/
theorem samplePeriodOutputs : Obligations.SamplePeriodOutputs := by
  intro s
  have hb := s.before.sampled.boundaryRest_fields
  obtain ⟨houtputs, -, hsamples, hlanes, hslots⟩ := hb
  refine ⟨_, exec_samplePeriod s, ?_, ?_, fun g => ?_, fun c => ?_, fun c f => ⟨?_, ?_, fun h => ?_, fun h => ?_⟩,
    fun p => ?_, ?_⟩
  · rw [State.endPeriod_frame, State.sampledRest_frame, State.before_frame]
  · rw [State.endPeriod_owed, State.sampledRest_frame, State.before_frame]
  · rw [Fin.getElem_fin, Fin.getElem_fin, State.endPeriod_lane, hlanes, State.sampled_lanes, State.before_lane]
    constructor <;> intro h <;> simp [h, Lane.missed]
  · rw [Fin.getElem_fin, State.endPeriod_samples, hsamples, State.sampled_samples, State.before_sample]; rfl
  · rw [Fin.getElem_fin, State.endPeriod_outputs, houtputs, State.sampled_output]
    exact (sampleOut_range _ _ _ _).1
  · rw [Fin.getElem_fin, State.endPeriod_outputs, houtputs, State.sampled_output]
    exact (sampleOut_range _ _ _ _).2
  · rw [State.endPeriod_chan] at h
    rw [Fin.getElem_fin, State.endPeriod_outputs, houtputs]
    refine s.before.sampled_silent c f (h.imp_right (Or.imp_right fun h => ?_))
    rw [State.before_sample, ← Fin.getElem_fin s.lanes, h]
    rfl
  · rw [State.endPeriod_chan, State.endPeriod_xp, Fin.getElem_fin, State.endPeriod_outputs, houtputs]
    exact s.before.sampledRest_xp c f (by rwa [State.before_owed, State.before_scenes])
  · rw [State.endPeriod_portOut, State.endPeriod_port, State.sampledRest_portOut, State.endPeriod_slots, hslots,
      State.endPeriod_outputs, houtputs]
    split
    · next h => split at h <;> simp_all
    · next fr h =>
      split at h
      · simp at h
      · next hon =>
        obtain rfl := Option.some.inj h
        exact ⟨hon, State.buildFrame_slot _ _⟩
  · rw [State.endPeriod_port, State.endPeriod_port]
    intro h1 h2
    have hc1 := s.before.sampledRest_portOut .c1
    have hc2 := s.before.sampledRest_portOut .c2
    rw [if_neg h1] at hc1
    rw [if_neg h2] at hc2
    rw [State.endPeriod_portOut]
    exact hc1.trans hc2.symm

end Sys2Proof.Machine
end

section
/-! PROOFS. What the boundary work makes of the exchange, and the close of a meter interval (R101, R178, R190). -/

namespace Sys2Proof.Machine

/-! ### The report store and the countdown -/

/-- What of the exchange no event changes: the settings, the report store, the held snapshot, the memory, and the meter
countdown. -/
def Exchange.stock (x : Exchange) :
    Bool × BitVec 2 × Nat × Nat × Nat × Option Snapshot × List Host.Cell × Nat :=
  (x.enable, x.blocksCode, x.unitId, x.oldest, x.filled, x.held, x.mem, x.meterCountdown)

@[simp] theorem Exchange.joinAll_stock (stamp : Word) (es : List Event) (x : Exchange) :
    (x.joinAll stamp es).stock = x.stock := by
  rw [Exchange.joinAll_frame]; rfl

@[simp] theorem Exchange.pollExpires_stock (x : Exchange) : x.pollExpires.stock = x.stock := by
  rw [Exchange.pollExpires_frame]; rfl

@[simp] theorem State.latchReply_stock (s : State) : s.latchReply.stock = s.ex.stock := by
  rw [State.latchReply_frame]; rfl

/-- Two exchanges with equal stock have equal parts. -/
theorem Exchange.stock_iff {x y : Exchange} : y.stock = x.stock ↔ y.enable = x.enable ∧ y.blocksCode = x.blocksCode ∧
    y.unitId = x.unitId ∧ y.oldest = x.oldest ∧ y.filled = x.filled ∧ y.held = x.held ∧ y.mem = x.mem ∧
    y.meterCountdown = x.meterCountdown := by
  simp only [Exchange.stock, Prod.mk.injEq]

/-! ### The units' work -/

section stock
variable (s : State)

theorem State.raise_stock (e : Event) : (s.raise e).ex.stock = s.ex.stock := Exchange.joinAll_stock s.frame [e] s.ex

theorem State.raiseAll_stock (es : List Event) : (s.raiseAll es).ex.stock = s.ex.stock := Exchange.joinAll_stock _ _ _

theorem State.putClock_stock (m : ClockMove) (tag : Option Half) : (s.putClock m tag).ex.stock = s.ex.stock := by
  unfold State.putClock
  split
  · rfl
  · rw [State.raise_stock]; rfl

theorem State.guardChan_stock (c : ChanId) (code : Nat) : (s.guardChan c code).ex.stock = s.ex.stock := by
  have hstep (t : State) : (t.guardStep c code).ex.stock = t.ex.stock := Exchange.joinAll_stock _ _ _
  have hfloor (t : State) : (t.guardFloor c code).ex.stock = t.ex.stock := by
    unfold State.guardFloor
    dsimp only
    split
    · rfl
    · rw [State.raise_stock]; rfl
  unfold State.guardChan
  dsimp only
  split
  · split
    · split
      · exact hstep _
      · exact hfloor _
    · rfl
  · rfl

theorem State.meterChan_stock (c : ChanId) : (s.meterChan c).ex.stock = s.ex.stock := s.guardChan_stock c _

theorem State.clockBoundary_stock (ph : PhaseInput) : (s.clockBoundary ph).ex.stock = s.ex.stock := s.putClock_stock _ _

theorem State.clockSettled_stock : s.clockSettled.ex.stock = s.ex.stock := by
  have hgives : s.acquisitionGivesUp.ex.stock = s.ex.stock := by
    unfold State.acquisitionGivesUp
    split
    · exact s.putClock_stock _ _
    · rfl
  have hretries (t : State) : t.clockRetries.ex.stock = t.ex.stock := by
    unfold State.clockRetries
    split
    · exact t.putClock_stock _ _
    · rfl
  rw [State.clockSettled, hretries, hgives]

/-- Every block's work but the Exchange Unit's own moves only events. -/
theorem State.unitWork_stock {u : BoundaryUnit} (hu : u ≠ .exchange) (ph : PhaseInput) :
    (s.unitWork u ph).ex.stock = s.ex.stock := by
  cases u with
  | meterGuard => exact foldl_keeps (g := fun t : State => t.ex.stock) State.meterChan_stock _ _
  | preampLine => rfl
  | sceneStore =>
    change s.sceneBoundary.ex.stock = s.ex.stock
    unfold State.sceneBoundary
    split
    · rfl
    · rw [State.raiseAll_stock, State.exchangeBanks_frame]
  | feedPorts =>
    exact foldl_keeps (g := fun t : State => t.ex.stock) (fun t p => (t.setPort p _).raiseAll_stock _) _ _
  | exchange => exact absurd rfl hu
  | clock => exact s.clockBoundary_stock ph

/-- What the Exchange Unit owes, and all but the events, the other blocks' work leaves alone. -/
theorem State.unitBoundary_other {u : BoundaryUnit} (hu : u ≠ .exchange) (ph : PhaseInput) :
    (State.unitBoundary ph s u).ex.stock = s.ex.stock ∧
      (State.unitBoundary ph s u).owed.contains .exchange = s.owed.contains .exchange := by
  unfold State.unitBoundary
  split
  · refine ⟨State.unitWork_stock _ hu ph, ?_⟩
    rw [State.unitWork_owed, Bool.eq_iff_iff, List.contains_iff_mem, List.contains_iff_mem, List.mem_filter]
    simp [Ne.symm hu]
  · exact ⟨rfl, rfl⟩

theorem State.unitBoundary_exchange (ph : PhaseInput) : (State.unitBoundary ph s .exchange).ex.stock =
    { s.ex with meterCountdown := s.ex.meterCountdown - if s.owed.contains .exchange then 1 else 0 }.stock := by
  unfold State.unitBoundary
  split <;> rfl

/-- The boundary work lowers the meter countdown by one where the Exchange Unit owes its work, and moves beside it only
events (R178). -/
theorem State.boundaryMade_stock : s.boundaryMade.ex.stock =
    { s.ex with meterCountdown := s.ex.meterCountdown - if s.owed.contains .exchange then 1 else 0 }.stock := by
  have hretries : s.boundaryMade.ex.stock = (s.boundaryWork allUnits (freePhase s.frame)).clockSettled.ex.stock := by
    rw [State.boundaryMade, State.retries_frame]
  rw [hretries, State.clockSettled_stock]
  generalize freePhase s.frame = ph
  let others : List BoundaryUnit := [.meterGuard, .preampLine, .sceneStore, .feedPorts, .clock]
  have hsplit : s.boundaryWork allUnits ph = State.unitBoundary ph (s.boundaryWork others ph) .exchange := by
    simp only [State.boundaryWork, allUnits, others, List.foldl_cons, List.foldl_nil]
  obtain ⟨hstock, howed⟩ : (s.boundaryWork others ph).ex.stock = s.ex.stock ∧
      (s.boundaryWork others ph).owed.contains .exchange = s.owed.contains .exchange := by
    refine List.foldlRecOn (motive := fun t : State => t.ex.stock = s.ex.stock ∧
      t.owed.contains .exchange = s.owed.contains .exchange) others _ ⟨rfl, rfl⟩ fun t ⟨h1, h2⟩ u hu => ?_
    have hu : u ≠ .exchange := by rintro rfl; simp [others] at hu
    obtain ⟨k1, k2⟩ := t.unitBoundary_other hu ph
    exact ⟨k1.trans h1, k2.trans h2⟩
  rw [hsplit, State.unitBoundary_exchange, howed]
  obtain ⟨h1, h2, h3, h4, h5, h6, h7, h8⟩ := Exchange.stock_iff.1 hstock
  simp only [Exchange.stock, h1, h2, h3, h4, h5, h6, h7, h8]

end stock

end Sys2Proof.Machine
end

section
/-! PROOFS. The METER report of a snapshot, byte by byte, and the snapshot handed over (R102, R181, R190). -/

namespace Sys2Proof.Machine

/-! ### The report -/

theorem SnapEntry.bytes_eq (e : SnapEntry) : e.bytes = little 2 e.peak ++ [flags [e.clip, e.fault, e.guarded, e.suspect],
    flags [e.sat.a, e.sat.b, e.sat.c, e.sat.d, e.limited.a, e.limited.b, e.limited.c, e.limited.d]] := by
  have hpad := flags_append_false [e.clip, e.fault, e.guarded, e.suspect] 4
  rw [SnapEntry.bytes, u16_little, feedBits, bitsByte_flags, bitsByte_flags, ← hpad]
  rfl

/-- The body of a METER report, channel by channel. -/
theorem Snapshot.body_eq (m : Snapshot) : m.body = meterBody m := by
  have hlist : m.entries.toList = (List.finRange 64).map fun c => m.entries[c] :=
    List.ext_getElem (by simp) fun i h1 h2 => by simp
  rw [Snapshot.body, hlist, List.flatMap_map, meterBody]
  exact List.flatMap_congr fun c _ => SnapEntry.bytes_eq _

theorem meterBody_length (m : Snapshot) : (meterBody m).length = 256 := by
  rw [← m.body_eq, Snapshot.body, List.length_flatMap]
  have hlen : m.entries.toList.map (fun e => e.bytes.length) = List.replicate 64 4 :=
    List.eq_replicate_iff.2 ⟨by simp, fun n hn => by
      obtain ⟨e, -, rfl⟩ := List.mem_map.1 hn
      rfl⟩
  rw [hlen, List.sum_replicate, smul_eq_mul]

/-- A report as the manual's tables lay it out. -/
theorem reportBytes_eq (kind : Byte) (unitId : Nat) (stamp : Word) (body : List Byte) :
    reportBytes kind unitId stamp body = reportBlock kind unitId stamp body := by
  rw [reportBytes, u16_little, wordBytes_little]; rfl

theorem reportBlock_length (kind : Byte) (unitId : Nat) (stamp : Word) {body : List Byte} (h : body.length ≤ 504) :
    (reportBlock kind unitId stamp body).length = 512 :=
  padTo_length (by simp [little]; omega)

/-- A report that is stored stands in the next block, and nothing beside it changes (R181, R185, R186). -/
theorem Exchange.store_reports (x : Exchange) (kind : Byte) (stamp : Word) {body : List Byte} (h : body.length ≤ 504)
    (hm : Memory.wf x.mem) : x.Reports (reportBlock kind x.unitId stamp body) (x.store kind stamp body) := by
  have hlen := reportBlock_length kind x.unitId stamp h
  have hmem : (x.store kind stamp body).mem = writeBytes x.mem x.nextOffset (reportBlock kind x.unitId stamp body) := by
    rw [← reportBytes_eq]; rfl
  refine ⟨?_, fun a ha => ?_⟩
  · rw [hmem]
    have hsame := readBytes_writeBytes_same (reportBlock kind x.unitId stamp body) x.nextOffset hm
    rwa [hlen] at hsame
  · rw [hmem, readByte_writeBytes_other _ _ (by omega)]

/-! ### The snapshot -/

/-- Whether a snapshot carries every saturation of another, of the same time. -/
def Snapshot.Covers (m new : Snapshot) : Prop :=
  m.stamp = new.stamp ∧ ∀ (c : ChanId) (f : Feed), new.entries[c].sat.get f = true → m.entries[c].sat.get f = true

theorem Snapshot.merge_covers (old new : Snapshot) : (old.merge new).Covers new := by
  refine ⟨by simp only [Snapshot.merge], fun c f h => ?_⟩
  have hentry : (old.merge new).entries[c] = (old.entries[c]).merge new.entries[c] := by
    simp only [Snapshot.merge, Fin.getElem_fin, tab_get]
  rw [hentry, SnapEntry.merge, PerFeed.of_get, h, Bool.or_true]

/-- What becomes of a snapshot that an exchange takes: it is held, or merged into the one that is held, or written (R190). -/
def Exchange.Handed (x : Exchange) (m : Snapshot) (y : Exchange) : Prop :=
  (y.held = some m ∧ y.filled = x.filled ∧ y.mem = x.mem) ∨
    (x.enable = true ∧ x.filled < x.count ∧ x.held = none ∧ y.held = none ∧ y.filled = x.filled + 1 ∧
      (Memory.wf x.mem → x.Reports (reportBlock 15#8 x.unitId m.stamp (meterBody m)) y))

/-- All that can become of a snapshot that is handed over. -/
theorem Exchange.takeSnapshot_handed (x : Exchange) (new : Snapshot) :
    ∃ m, m.Covers new ∧ x.Handed m (x.takeSnapshot new) := by
  unfold Exchange.takeSnapshot
  cases hheld : x.held with
  | some old => exact ⟨old.merge new, old.merge_covers new, .inl ⟨rfl, rfl, rfl⟩⟩
  | none =>
    refine ⟨new, ⟨rfl, fun _ _ h => h⟩, ?_⟩
    dsimp only
    split
    · next h =>
      obtain ⟨-, -, hwrite⟩ := h
      simp only [Exchange.mayWrite, Bool.and_eq_true, decide_eq_true_eq] at hwrite
      obtain ⟨hon, hfree⟩ := hwrite
      refine .inr ⟨hon, hfree, hheld, hheld, rfl, fun hm => ?_⟩
      rw [new.body_eq]
      exact x.store_reports _ _ (by rw [meterBody_length]; decide) hm
    · exact .inl ⟨rfl, rfl, rfl⟩

/-- Only the stock of an exchange says whether it took a snapshot. -/
theorem Exchange.Handed.of_stock {x x' y y' : Exchange} {m : Snapshot} (h : x.Handed m y)
    (hx : x'.enable = x.enable ∧ x'.blocksCode = x.blocksCode ∧ x'.unitId = x.unitId ∧ x'.oldest = x.oldest ∧
      x'.filled = x.filled ∧ x'.held = x.held ∧ x'.mem = x.mem) (hy : y'.stock = y.stock) : x'.Handed m y' := by
  obtain ⟨e1, e2, e3, e4, e5, e6, e7⟩ := hx
  obtain ⟨-, -, -, -, f5, f6, f7, -⟩ := Exchange.stock_iff.1 hy
  have hcount : x'.count = x.count := by rw [Exchange.count, e2, Exchange.count]
  have hoffset : x'.nextOffset = x.nextOffset := by rw [Exchange.nextOffset, e4, e5, hcount, Exchange.nextOffset]
  simp only [Exchange.Handed, Exchange.Reports, e1, e3, e5, e6, e7, f5, f6, f7, hcount, hoffset]
  exact h

/-! ### The close of a meter interval -/

/-- A close hands the snapshot over, and clears the saturation marks; nothing is closed before the countdown has run out. -/
theorem State.exchangeSettled_handed (s : State) (h : s.closeDue = true) :
    ∃ m, m.Covers s.snapshot ∧ s.ex.Handed m s.exchangeSettled.ex := by
  obtain ⟨m, hm, hhanded⟩ :=
    ({ s.ex with meterCountdown := s.ex.meterInterval } : Exchange).takeSnapshot_handed s.snapshot
  refine ⟨m, hm, hhanded.of_stock ⟨rfl, rfl, rfl, rfl, rfl, rfl, rfl⟩ ?_⟩
  have hex : s.closeInterval.ex =
      ({ s.ex with meterCountdown := s.ex.meterInterval } : Exchange).takeSnapshot s.snapshot := by
    rw [State.closeInterval, if_pos h]
  rw [← hex]
  exact s.closeInterval.ex.pollExpires_stock

theorem State.snapshot_sat (s : State) (c : ChanId) (f : Feed) : s.snapshot.entries[c].sat.get f = (s.xp c f).satSeen := by
  have hentry : s.snapshot.entries[c] = s.snapEntry c := by simp only [State.snapshot, Fin.getElem_fin, tab_get]
  rw [hentry, State.snapEntry, PerFeed.of_get]

end Sys2Proof.Machine
end

section
/-! PROOFS. The six stages of an output sample, each as the manual says it (R12 to R17). -/

namespace Sys2Proof.Machine

/-- The gain split as stage 1 says (R12). -/
theorem stage_of_split {g e k : Int} (hg : g = 24 * e + k) (h0 : 0 ≤ k) (h24 : k < 24) :
    stageE g = e ∧ stageK g = k.toNat ∧ stageShift g = (15 - e).toNat := by
  have he : stageE g = e := by unfold stageE; omega
  exact ⟨he, by rw [stageK, he]; omega, by rw [stageShift, he]⟩

/-- The product, rounded and scaled, is the integer that stages 2 and 3 bound (R13, R14). -/
theorem stageScale_eq_iff (x g y : Int) : stageScale x g = y ↔
    2 ^ stageShift g * y ≤ x * mantissa (stageK g) + 2 ^ (stageShift g - 1) ∧
      x * mantissa (stageK g) + 2 ^ (stageShift g - 1) < 2 ^ stageShift g * (y + 1) := by
  have hpos : (0 : Int) < 2 ^ stageShift g := by positivity
  rw [stageScale, Int.ediv_eq_iff_of_pos hpos, mul_comm y, mul_add, mul_one]

/-- Stage 4 is the clamp to the sample range, and says where it moves its operand (R15). -/
theorem stageSaturate_eq (y : Int) :
    stageSaturate y = (max minSample (min maxSample y), decide (y ≠ max minSample (min maxSample y))) := by
  unfold stageSaturate minSample maxSample
  split
  · simp only [Prod.mk.injEq, true_eq_decide_iff]; omega
  · split
    · simp only [Prod.mk.injEq, true_eq_decide_iff]; omega
    · simp only [Prod.mk.injEq, false_eq_decide_iff]; omega

/-- Stage 5 negates, but for the least sample (R16). -/
theorem stageInvert_eq (invert : Bool) (y : Int) : stageInvert invert y =
    (if invert = true then (if y = minSample then maxSample else -y) else y,
      decide (invert = true ∧ y = minSample)) := by
  unfold stageInvert
  cases invert
  · simp
  · by_cases h : y = minSample <;> simp [h]

/-- The six stages give the output, and say where stage 4 or 5 saturates (R11 to R17). -/
theorem sampleOut_of_stages {x g e k y1 y2 y3 : Int} {invert muted sat : Bool} {n : Nat} (hg : g = 24 * e + k)
    (h0 : 0 ≤ k) (h24 : k < 24) (hn : (n : Int) = 15 - e)
    (hlow : 2 ^ n * y1 ≤ x * mantissa k.toNat + 2 ^ (n - 1))
    (hhigh : x * mantissa k.toNat + 2 ^ (n - 1) < 2 ^ n * (y1 + 1)) (h2 : y2 = max minSample (min maxSample y1))
    (h3 : y3 = if invert = true then (if y2 = minSample then maxSample else -y2) else y2)
    (hsat : sat = true ↔ y1 ≠ y2 ∨ (invert = true ∧ y2 = minSample)) :
    sampleOut x g invert muted = (if muted = true then 0 else y3, sat) := by
  obtain ⟨-, hk, hs⟩ := stage_of_split hg h0 h24
  have hs : stageShift g = n := by rw [hs]; omega
  have hscale : stageScale x g = y1 := (stageScale_eq_iff x g y1).2 (by rw [hk, hs]; exact ⟨hlow, hhigh⟩)
  have hsaturate : stageSaturate (stageScale x g) = (y2, decide (y1 ≠ y2)) := by rw [hscale, stageSaturate_eq, h2]
  have hmark : sat = (decide (y1 ≠ y2) || decide (invert = true ∧ y2 = minSample)) := by
    rw [Bool.eq_iff_iff, hsat, Bool.or_eq_true, decide_eq_true_eq, decide_eq_true_eq]
  rw [sampleOut, hsaturate, stageInvert_eq, ← h3, hmark]
  rfl

/-- When a crosspoint is muted (R17). -/
theorem mutedAt_iff (ch : Chan) (x : Xp) : mutedAt ch x = true ↔
    x.mute = true ∨ ch.phantom = .rampUp ∨ ch.phantom = .rampDown ∨ ch.startup = true := by
  simp only [mutedAt, Chan.rampMute, Bool.or_eq_true, beq_iff_eq, or_assoc]

end Sys2Proof.Machine
end

section
/-! PROOFS. What the end of a period leaves of its sample: the saturations, the snapshot, the block records, the line and the
channels. -/

namespace Sys2Proof.Machine

/-! ### The meter interval that closes in the period -/

/-- The meter interval closes at the end of the running period: its countdown, with the boundary's work made, has run out
(R178). -/
def State.closes (s : State) : Bool := decide (s.ex.meterCountdown ≤ if s.owed.contains .exchange then 1 else 0)

section rest
variable (s : State)

theorem State.boundaryMade_closeDue : s.boundaryMade.closeDue = s.closes := by
  obtain ⟨-, -, -, -, -, -, -, hcountdown⟩ := Exchange.stock_iff.1 s.boundaryMade_stock
  have hcountdown : s.boundaryMade.ex.meterCountdown =
      s.ex.meterCountdown - if s.owed.contains .exchange then 1 else 0 := hcountdown
  rw [State.closeDue, hcountdown, State.closes, Bool.eq_iff_iff, beq_iff_eq, decide_eq_true_eq, Nat.sub_eq_zero_iff_le]

/-- Where nothing of a boundary is due, nothing is owed and no countdown has run out. -/
theorem State.of_calmAfter {s : State} (h : s.calmAfter = true) : s.owed = [] ∧ s.closes = false := by
  simp only [State.calmAfter, Bool.and_eq_true, List.isEmpty_iff, Bool.not_eq_true', State.closeDue, beq_eq_false_iff_ne] at h
  obtain ⟨⟨⟨⟨⟨howed, -⟩, -⟩, -⟩, hclose⟩, -⟩ := h
  refine ⟨howed, ?_⟩
  rw [State.closes, howed, decide_eq_false_iff_not]
  simpa using hclose

/-- A saturation mark stands until a close. -/
theorem State.boundaryRest_satSeen (c : ChanId) (f : Feed) :
    (s.boundaryRest.xp c f).satSeen = (!s.closes && (s.xp c f).satSeen) := by
  rw [State.boundaryRest_eq]
  split
  · next h => rw [(State.of_calmAfter h).2]; rfl
  · rw [State.exchangeSettled_xp, State.boundaryMade_closeDue, ← s.boundaryMade_satSeen c f]

theorem State.boundaryMade_frameCounter : s.boundaryMade.frame = s.frame :=
  State.boundaryMade_induct (P := fun t => t.frame = s.frame) (fun _ _ _ _ _ _ ht => ht)
    (fun _ t c ht => by obtain ⟨ch, -, he⟩ := t.meterChan_cases c; rw [he]; exact ht)
    (fun _ t ht => by rw [State.exchangeBanks_frame]; exact ht) rfl

/-- A meter interval that closes hands over a snapshot of its time, with every saturation that is marked (R18, R101,
R190). -/
theorem State.boundaryRest_handed (h : s.closes = true) : ∃ m : Snapshot, m.stamp = s.frame ∧
    (∀ (c : ChanId) (f : Feed), (s.xp c f).satSeen = true → m.entries[c].sat.get f = true) ∧
    s.ex.Handed m s.boundaryRest.ex := by
  have hcalm : ¬ s.calmAfter = true := fun hcalm => Bool.false_ne_true ((State.of_calmAfter hcalm).2.symm.trans h)
  have hdue := s.boundaryMade_closeDue.trans h
  have hframe := s.boundaryMade_frameCounter
  have hseen := s.boundaryMade_satSeen
  obtain ⟨h1, h2, h3, h4, h5, h6, h7, -⟩ := Exchange.stock_iff.1 s.boundaryMade_stock
  rw [State.boundaryRest_eq, if_neg hcalm]
  generalize s.boundaryMade = t at *
  obtain ⟨m, ⟨hstamp, hsat⟩, hhanded⟩ := t.exchangeSettled_handed hdue
  refine ⟨m, hstamp.trans hframe, fun c f hc => hsat c f ?_, ?_⟩
  · rw [State.snapshot_sat, hseen, hc]
  · exact hhanded.of_stock ⟨h1.symm, h2.symm, h3.symm, h4.symm, h5.symm, h6.symm, h7.symm⟩ rfl

/-! ### The block records, the line and the channels -/

/-- The boundary work that is left clears the block records where the Meter and Guard Unit owes it (R98). -/
theorem State.boundaryRest_block (c : ChanId) : s.boundaryRest.blocks[c.val] =
    if s.owed.contains .meterGuard then resetBlock else s.blocks[c.val] := by
  have hsettled (t : State) : t.exchangeSettled.blocks = t.blocks := by rw [State.exchangeSettled_frame]
  by_cases h : s.calmAfter = true
  · rw [s.boundaryRest_of_calm h]
    simp [(State.of_calmAfter h).1]
  · have hrest : s.boundaryRest.blocks = s.boundaryMade.blocks := by rw [State.boundaryRest_eq, if_neg h, hsettled]
    rw [hrest, State.boundaryMade_block]

theorem State.boundaryRest_line : s.boundaryRest.line = s.line := by
  have hsettled (t : State) : t.exchangeSettled.line = t.line := by rw [State.exchangeSettled_frame]
  rw [State.boundaryRest_eq]
  split
  · rfl
  · rw [hsettled, State.boundaryMade_line]

theorem State.boundaryRest_chans (hm : s.owed.contains .meterGuard = false) (hs : s.owed.contains .sceneStore = false) :
    s.boundaryRest.chans = s.chans := by
  have hsettled (t : State) : t.exchangeSettled.chans = t.chans := by rw [State.exchangeSettled_frame]
  rw [State.boundaryRest_eq]
  split
  · rfl
  · rw [hsettled, State.boundaryMade_chans hm hs]

end rest

/-! ### The sample of the period -/

section period
variable (b : State)

theorem State.sampled_stock : b.sampled.ex.stock = b.ex.stock := by
  rw [State.sampled_ex, Exchange.joinAll_stock, State.latchReply_stock]

theorem State.sampled_closes : b.sampled.closes = b.closes := by
  obtain ⟨-, -, -, -, -, -, -, hcountdown⟩ := Exchange.stock_iff.1 b.sampled_stock
  rw [State.closes, hcountdown, State.sampled_owed, State.closes]

/-- The block record of a channel at the end of the period: the sample is the first of the new block where the boundary's
work was left (R97, R98). -/
theorem State.period_block (c : ChanId) : b.sampled.boundaryRest.endPeriod.blocks[c.val] =
    (if b.owed.contains .meterGuard then resetBlock else b.blocks[c.val]).sample b.samples[c.val]
      b.lanes[(boardOf c).val].fault ((b.chan c).op == .suspect) := by
  have hsuspect : ((b.sampled.boundaryRest.chan c).op == .suspect) = ((b.chan c).op == .suspect) := by
    have h := b.sampled.boundaryRest_chan_untargeted c
    simp only [Chan.untargeted, Prod.mk.injEq] at h
    obtain ⟨-, -, -, -, -, hop⟩ := h
    rw [hop, State.sampled_chan, Chan.watch_suspect]
  obtain ⟨-, -, hsamples, hlanes, -⟩ := b.sampled.boundaryRest_fields
  rw [State.endPeriod_block, State.boundaryRest_block, hsuspect, hsamples, hlanes, State.sampled_owed,
    State.sampled_blocks, State.sampled_samples, State.sampled_lanes]

/-- The last sign and the ramp count of a channel at the end of the period (R73, R91). -/
theorem State.period_counts (c : ChanId) :
    (b.sampled.boundaryRest.endPeriod.chan c).lastNeg = decide (b.samples[c.val] < 0) ∧
      (b.sampled.boundaryRest.endPeriod.chan c).ramp = (b.chan c).ramp - if (b.chan c).rampMute then 1 else 0 := by
  have h := b.sampled.boundaryRest_chan_untargeted c
  rw [State.sampled_chan] at h
  simp only [Chan.untargeted, Prod.mk.injEq] at h
  obtain ⟨-, -, hramp, -, hneg, -⟩ := h
  rw [State.endPeriod_chan]
  refine ⟨hneg, hramp.trans ?_⟩
  unfold Chan.watch
  split <;> rfl

/-- A channel's watch at the sample of the period, where no boundary work retargets (R73). -/
theorem State.period_watch (hm : b.owed.contains .meterGuard = false) (hs : b.owed.contains .sceneStore = false)
    (c : ChanId) :
    (b.sampled.boundaryRest.endPeriod.chan c).op = ((b.chan c).watch b.samples[c.val]).op ∧
      (b.sampled.boundaryRest.endPeriod.chan c).window = ((b.chan c).watch b.samples[c.val]).window := by
  have hchan : b.sampled.boundaryRest.chan c = (b.chan c).watch b.samples[c.val] := by
    rw [State.chan, b.sampled.boundaryRest_chans (by rw [State.sampled_owed, hm]) (by rw [State.sampled_owed, hs]),
      ← State.sampled_chan, State.chan]
  rw [State.endPeriod_chan, hchan]
  exact ⟨rfl, rfl⟩

/-- The watch of a sample: outside ZC_WAIT, and in the period of entry, it examines nothing; with a window left it ends at a
crossing, and counts the window down otherwise (R73). -/
theorem Chan.watch_cases (ch : Chan) (x : Int) :
    (ch.op ≠ .zcWait → (ch.watch x).op = ch.op ∧ (ch.watch x).window = ch.window) ∧
    (ch.op = .zcWait → ch.fresh = true → (ch.watch x).op = .zcWait ∧ (ch.watch x).window = ch.window) ∧
    (ch.op = .zcWait → ch.fresh = false → ch.window ≠ 0 →
      (x = 0 ∨ decide (x < 0) ≠ ch.lastNeg → (ch.watch x).op = .lineWait) ∧
      (¬(x = 0 ∨ decide (x < 0) ≠ ch.lastNeg) → (ch.watch x).op = .zcWait ∧ (ch.watch x).window = ch.window - 1)) := by
  have hcross : crosses ch.lastNeg x = true ↔ x = 0 ∨ decide (x < 0) ≠ ch.lastNeg := by simp [crosses]
  rw [← hcross]
  refine ⟨fun h => ?_, fun h hf => ?_, fun h hf hw => ⟨fun hc => ?_, fun hc => ?_⟩⟩
  · simp [Chan.watch, h]
  · simp [Chan.watch, h, hf]
  · simp [Chan.watch, h, hf, hw, hc]
  · simp [Chan.watch, h, hf, hw, hc]

/-- The answer window of a transaction in flight runs up by one, unless it has run out (R35). -/
theorem State.period_line (h : b.windowDue = false) :
    b.sampled.boundaryRest.endPeriod.line = b.line.map fun l => { l with window := l.window + 1 } := by
  rw [State.endPeriod_line, State.boundaryRest_line, State.sampled_line]
  cases hl : b.line with
  | none => rfl
  | some l =>
    have hw : l.window + 1 ≤ Config.answerWindow := by
      rw [State.windowDue, hl] at h
      exact Nat.lt_of_not_le (of_decide_eq_false h)
    rw [Option.map_some, Option.map_some, InFlight.age, Nat.min_eq_right hw]

end period

end Sys2Proof.Machine
end

section
/-! PROOFS. O13: the stages, control words, records, watches and events of a period in which nothing is due before its
sample. -/

namespace Sys2Proof.Machine

/-! ### The state that the sample is computed from -/

/-- Where nothing is due before the sample, only the lanes without a frame are judged before it. -/
theorem State.before_of_calm {s : State} (h : s.calmBefore = true) : s.before = s.withMissed (indices 8) := by
  rw [State.before, s.catchUp_of_calm h]

/-- A period in which nothing is due before the sample finds no answer window that has run out. -/
theorem State.windowDue_of_calm {s : State} (h : s.calmBefore = true) : s.windowDue = false := by
  simp only [State.calmBefore, Bool.and_eq_true, Bool.not_eq_true'] at h
  obtain ⟨⟨⟨-, hwindow⟩, -⟩, -⟩ := h
  exact hwindow

section missed
variable (s : State) (l : List LaneId)

theorem State.withMissed_stock : (s.withMissed l).ex.stock = s.ex.stock := s.ex.joinAll_stock _ _

theorem State.withMissed_closes : (s.withMissed l).closes = s.closes := by
  obtain ⟨-, -, -, -, -, -, -, hcountdown⟩ := Exchange.stock_iff.1 (s.withMissed_stock l)
  rw [State.closes, hcountdown, State.withMissed_owed, State.closes]

/-- After the period's frames a lane is in FAULT where it was or where its frame is missing (R23, R24). -/
theorem State.withMissed_fault (g : LaneId) : (s.withMissed (indices 8)).lanes[g.val].fault = true ↔
    s.lanes[g.val].fault = true ∨ s.lanes[g.val].judged = false := by
  rw [State.withMissed_lane]
  cases s.lanes[g.val].judged <;> simp [mem_indices, Lane.missed]

/-- A lane delivers what was judged, and zeros where its frame is missing (R22, R23). -/
theorem State.withMissed_delivered (c : ChanId) : (s.withMissed (indices 8)).samples[c.val] =
    if s.lanes[(boardOf c).val].judged = true then s.samples[c.val] else 0 := by
  rw [State.withMissed_sample]
  cases s.lanes[(boardOf c).val].judged <;> simp [mem_indices]

end missed

/-! ### The control words -/

section control
variable (b : State)

/-- A frame that stands after the period carries the control word of the state before its sample. -/
theorem State.period_control {p : Port} {fr : Frame} (h : b.sampled.boundaryRest.endPeriod.portOut.get p = some fr) :
    fr.control = b.controlWord (portFeed p) := by
  rw [State.endPeriod_portOut, State.sampledRest_portOut] at h
  split at h
  · simp at h
  · obtain rfl := Option.some.inj h
    exact b.sampled_controlWord _

variable {b : State} {f : Feed} {i : SlotId} (hi : i.val = b.frame.toNat % 64)
include hi

/-- The unit, the boundary mark and the slot of a control word, and the part that its slot fills (R134, R183). -/
theorem State.controlWord_header : (b.controlWord f).extractLsb' 29 3 = BitVec.ofNat 3 b.ex.unitId ∧
    ((b.controlWord f).getLsbD 28 = true ↔ b.frame.toNat % 48 = 0) ∧
    ((b.controlWord f).extractLsb' 22 6).toNat = i.val ∧
    (b.controlWord f).extractLsb' 0 22 = b.slotStatus (b.slots.get f)[i] := by
  obtain rfl : i = b.slotIndex := Fin.ext hi
  obtain ⟨hunit, hmark, hindex, hstatus⟩ := b.controlWord_fields f
  refine ⟨hunit, by rw [hmark, beq_iff_eq, Config.blockPeriods], ?_, hstatus⟩
  rw [hindex, BitVec.toNat_ofNat]
  exact Nat.mod_eq_of_lt b.slotIndex.isLt

/-- An empty slot in a control word (R183). -/
theorem State.controlWord_empty (h : (b.slots.get f)[i] = none) :
    (b.controlWord f).extractLsb' 19 3 = 7#3 ∧ (b.controlWord f).extractLsb' 0 19 = 0#19 := by
  obtain ⟨-, -, -, hstatus⟩ := State.controlWord_header (f := f) hi
  rw [h] at hstatus
  obtain ⟨hempty, hzero⟩ := b.slotStatus_none
  exact ⟨(extract_of_extract hstatus (by decide)).trans hempty, (extract_of_extract hstatus (by decide)).trans hzero⟩

/-- A channel's slot in a control word (R135, R183). -/
theorem State.controlWord_channel {c : ChanId} (h : (b.slots.get f)[i] = some c) :
    (b.controlWord f).extractLsb' 19 3 = (ownerByte (b.chan c).owner).setWidth 3 ∧
      ((b.controlWord f).extractLsb' 13 6).toNat = c.val ∧
      (b.controlWord f).extractLsb' 7 6 = BitVec.ofInt 6 ((b.chan c).app.analog / 6) ∧
      (b.controlWord f).getLsbD 6 = (b.chan c).app.padIn ∧
      (b.controlWord f).extractLsb' 3 3 = BitVec.ofNat 3 (phantomCode (b.chan c).phantom) ∧
      (b.controlWord f).getLsbD 2 = b.lanes[(boardOf c).val].fault ∧
      ((b.controlWord f).getLsbD 1 = true ↔ (b.chan c).op = .suspect) ∧
      (b.controlWord f).getLsbD 0 = (b.chan c).startup := by
  obtain ⟨-, -, -, hstatus⟩ := State.controlWord_header (f := f) hi
  rw [h] at hstatus
  obtain ⟨howner, hchan, hlevel, hpad, hphantom, hfault, hsuspect, hstartup⟩ := b.slotStatus_some c
  refine ⟨(extract_of_extract hstatus (by decide)).trans howner, ?_,
    (extract_of_extract hstatus (by decide)).trans hlevel, (getLsbD_of_extract hstatus (by decide)).trans hpad,
    (extract_of_extract hstatus (by decide)).trans hphantom, (getLsbD_of_extract hstatus (by decide)).trans hfault, ?_,
    (getLsbD_of_extract hstatus (by decide)).trans hstartup⟩
  · rw [(extract_of_extract hstatus (by decide)).trans hchan, BitVec.toNat_ofNat]
    exact Nat.mod_eq_of_lt c.isLt
  · rw [(getLsbD_of_extract hstatus (by decide)).trans hsuspect, beq_iff_eq]

end control

/-! ### The events -/

/-- Handing events over does not read or touch the record in hand. -/
theorem Exchange.joinAll_withInHand (stamp : Word) (es : List Event) (x : Exchange) (h : Option InHand) :
    ({ x with inHand := h } : Exchange).joinAll stamp es = { x.joinAll stamp es with inHand := h } := by
  have hjoin (y : Exchange) (q : QueuedEvent) : ({ y with inHand := h } : Exchange).join q = { y.join q with inHand := h } := by
    unfold Exchange.join; dsimp only; split <;> rfl
  induction es generalizing x with
  | nil => rfl
  | cons e es ih => simp only [Exchange.joinAll_cons, hjoin, ih]

/-- A limited flag that changes becomes what it was not. -/
theorem State.limitEvent_eq (s : State) (c : ChanId) (f : Feed) : s.limitEvent c f =
    if outOfRange ((s.xp c f).raw (s.chan c).level) = (s.xp c f).limited then []
    else [.limit c f (!(s.xp c f).limited) (s.xp c f).cause ((s.xp c f).raw (s.chan c).level)
      (clampGain ((s.xp c f).raw (s.chan c).level)) (s.chan c).level] := by
  unfold State.limitEvent
  dsimp only
  split
  · rfl
  · next h => rw [Bool.eq_not.2 h]; rfl

/-- A sample makes nothing of a boundary due. -/
theorem State.sampled_calmAfter {s : State} (l : List LaneId) (h : s.calmAfter = true) :
    (s.withMissed l).sampled.calmAfter = true := by
  have hex : (s.withMissed l).sampled.ex.pollDue = s.ex.pollDue ∧
      (s.withMissed l).sampled.ex.meterCountdown = s.ex.meterCountdown := by
    rw [State.sampled_ex, Exchange.joinAll_frame, State.latchReply_frame, State.withMissed_ex, Exchange.joinAll_frame]
    exact ⟨rfl, rfl⟩
  obtain ⟨hpoll, hcountdown⟩ := hex
  have hclock : (s.withMissed l).sampled.clock = s.clock := State.sampled_clock _
  have hboard (g : BoardId) : (s.withMissed l).sampled.board g = s.board g := by
    rw [State.board, State.sampled_boards]; rfl
  simpa only [State.calmAfter, State.closeDue, hpoll, hcountdown, hclock, hboard, State.sampled_owed,
    State.withMissed_owed] using h

/-- Where nothing of a boundary is due, the events of a period are those of its missing frames and of its limited flags,
after what stands. -/
theorem State.period_ex {s : State} (h : s.calmAfter = true) :
    (s.withMissed (indices 8)).sampled.boundaryRest.endPeriod.ex =
      { s.ex.joinAll s.frame ((indices 8).flatMap s.missedEvent ++ s.limitEvents) with
        inHand := (s.withMissed (indices 8)).sampled.boundaryRest.endPeriod.ex.inHand } := by
  have hlimits : (s.withMissed (indices 8)).limitEvents = s.limitEvents := rfl
  have hex : (s.withMissed (indices 8)).sampled.boundaryRest.endPeriod.ex =
      { s.ex.joinAll s.frame ((indices 8).flatMap s.missedEvent ++ s.limitEvents) with
        inHand := (s.withMissed (indices 8)).latchReply.inHand } := by
    rw [State.endPeriod_ex, State.boundaryRest_of_calm _ (State.sampled_calmAfter _ h), State.sampled_ex,
      State.latchReply_frame, Exchange.joinAll_withInHand, State.withMissed_frame, hlimits, Exchange.joinAll_append]
    rfl
  rw [hex]

end Sys2Proof.Machine
end

section
/-! PROOFS. O13 from its clauses. -/

namespace Sys2Proof.Machine

section clauses
variable (b : State)

/-- An output is what the stages give, and a saturation of the sample stays marked unless the meter interval closes
(R11 to R18). -/
theorem State.period_output (c : ChanId) (f : Feed) {y : Int} {sat : Bool} (h : b.xpSample c f = (y, sat)) :
    b.sampled.boundaryRest.endPeriod.outputs[c.val].get f = y ∧
    (b.sampled.boundaryRest.endPeriod.xp c f).satSeen = (!b.closes && ((b.xp c f).satSeen || sat)) := by
  have houtputs : b.sampled.boundaryRest.endPeriod.outputs = b.sampled.outputs := by
    rw [State.endPeriod_outputs, b.sampled.boundaryRest_fields.1]
  refine ⟨by rw [houtputs, State.sampled_output, h], ?_⟩
  rw [State.endPeriod_xp, State.boundaryRest_satSeen, State.sampled_closes, State.sampled_xp, State.xpAfter, h]

/-- The snapshot of a meter interval that closes with the period has the saturations of its sample, and is handed over
(R101, R190). -/
theorem State.period_handed : ∃ m : Snapshot, b.closes = true → m.stamp = b.frame ∧
    (∀ (c : ChanId) (f : Feed), (b.xp c f).satSeen = true ∨ (b.xpSample c f).2 = true →
      m.entries[c].sat.get f = true) ∧
    b.ex.Handed m b.sampled.boundaryRest.endPeriod.ex := by
  by_cases h : b.closes = true
  · obtain ⟨m, hstamp, hsat, hhanded⟩ := b.sampled.boundaryRest_handed (b.sampled_closes.trans h)
    obtain ⟨h1, h2, h3, h4, h5, h6, h7, -⟩ := Exchange.stock_iff.1 b.sampled_stock
    refine ⟨m, fun _ => ⟨hstamp.trans b.sampled_frame, fun c f hc => hsat c f ?_, ?_⟩⟩
    · rw [State.sampled_xp]
      exact Bool.or_eq_true_iff.2 hc
    · exact hhanded.of_stock ⟨h1.symm, h2.symm, h3.symm, h4.symm, h5.symm, h6.symm, h7.symm⟩
        (by rw [State.endPeriod_ex])
  · exact ⟨b.snapshot, fun hc => absurd hc h⟩

end clauses

/-- Settles O13: with nothing due before it, the sample is computed from the state with the missing frames judged, and each
clause reads one part of what the period leaves. -/
theorem samplePeriodWatches : Obligations.SamplePeriodWatches := by
  intro s closes delivered faulted hcalm hcloses hdelivered hfaulted
  let b := s.withMissed (indices 8)
  have hexec : exec .samplePeriod s = .next b.sampled.boundaryRest.endPeriod := by
    rw [exec_samplePeriod, State.before_of_calm hcalm]
  have hsample (c : ChanId) : b.samples[c.val] = delivered c := by
    rw [s.withMissed_delivered, hdelivered]; rfl
  have hfault (g : LaneId) : b.lanes[g.val].fault = faulted g := by
    rw [Bool.eq_iff_iff, s.withMissed_fault, hfaulted]; rfl
  have hwindow : s.windowDue = false := State.windowDue_of_calm hcalm
  have hclose : b.closes = closes := (s.withMissed_closes _).trans hcloses.symm
  have hstock := Exchange.stock_iff.1 (s.withMissed_stock (indices 8))
  obtain ⟨h1, h2, h3, h4, h5, h6, h7, -⟩ := hstock
  obtain ⟨m, hm⟩ := b.period_handed
  rw [hclose] at hm
  refine ⟨_, m, hexec, fun c f x g e k p y1 y2 y3 n sat hx hg hsplit h0 h24 hn hp hlow hhigh hy2 hy3 hsat => ?_,
    fun hc hwf => ?_, fun p fr hfr i hi => ?_, fun c r hr => ?_, b.period_line hwindow, fun c => ?_,
    fun hafter => ?_⟩
  · subst hx hp
    have hgain : (s.xp c f).gain (s.chan c).level = g := hg.symm
    have hstages : b.xpSample c f = (if mutedAt (s.chan c) (s.xp c f) = true then 0 else y3, sat) := by
      rw [State.xpSample, Fin.getElem_fin, hsample]
      change sampleOut _ ((s.xp c f).gain (s.chan c).level) (s.xp c f).invert _ = _
      rw [hgain]
      exact sampleOut_of_stages hsplit h0 h24 hn hlow hhigh hy2 hy3 hsat
    obtain ⟨houtput, hseen⟩ := b.period_output c f hstages
    refine ⟨?_, by rw [hseen, hclose]; rfl, fun hc hor => ?_⟩
    · rw [Fin.getElem_fin, houtput]
      simp only [mutedAt_iff]
    · obtain ⟨-, hmarked, -⟩ := hm hc
      refine hmarked c f ?_
      rw [hstages]
      exact hor
  · obtain ⟨hstamp, -, hhanded⟩ := hm hc
    refine ⟨hstamp, ?_⟩
    have hhanded := hhanded.of_stock ⟨h1.symm, h2.symm, h3.symm, h4.symm, h5.symm, h6.symm, h7.symm⟩ rfl
    refine hhanded.imp_right fun ⟨hon, hfree, hnone, hheld, hfilled, hreports⟩ => ?_
    exact ⟨hon, hfree, hnone, hheld, hfilled, hreports hwf⟩
  · have hcontrol := b.period_control hfr
    obtain ⟨hunit, hmark, hindex, -⟩ := State.controlWord_header (b := b) (f := portFeed p) hi
    rw [hcontrol]
    refine ⟨hunit.trans (by rw [h3]), hmark, hindex, ?_⟩
    cases hslot : (s.slots.get (portFeed p))[i] with
    | none => exact State.controlWord_empty (b := b) hi hslot
    | some c =>
      obtain ⟨howner, hchan, hlevel, hpad, hphantom, hlane, hsuspect, hstartup⟩ :=
        State.controlWord_channel (b := b) hi hslot
      refine ⟨howner.trans ?_, hchan, hlevel, hpad, hphantom.trans ?_, hlane.trans (hfault _), hsuspect, hstartup⟩
      · change (ownerByte (s.chan c).owner).setWidth 3 = _
        cases (s.chan c).owner with
        | none => rfl
        | some f => cases f <;> rfl
      · change BitVec.ofNat 3 (phantomCode (s.chan c).phantom) = _
        cases (s.chan c).phantom <;> rfl
  · rw [Fin.getElem_fin, b.period_block, hsample, hfault, hr]
    rfl
  · obtain ⟨hneg, hramp⟩ := b.period_counts c
    refine ⟨by rw [hneg, hsample], hramp, fun hmeter hscene => ?_⟩
    obtain ⟨hop, hwindow⟩ := b.period_watch hmeter hscene c
    rw [hop, hwindow, hsample]
    exact (s.chan c).watch_cases _
  · refine (State.period_ex hafter).trans ?_
    have hevents : s.limitEvents = (List.finRange 64).flatMap fun c => allFeeds.flatMap fun f => s.limitEvent c f := rfl
    simp only [hevents, State.limitEvent_eq]
    rfl

end Sys2Proof.Machine
end

section
/-! PROOFS. The part right after POWER_ON_RESET (R26 to R190). -/

namespace Sys2Proof.Machine

/-! ### Power-on values of the tables, entry by entry -/

theorem State.reset_lane (g : LaneId) : State.reset.lanes[g] = resetLane := by simp [State.reset]
theorem State.reset_board (b : BoardId) : State.reset.board b = resetBoard := by simp [State.board, State.reset]
theorem State.reset_xp (c : ChanId) (f : Feed) : State.reset.xp c f = resetXp := by simp [State.xp, State.reset]
theorem State.reset_chan (c : ChanId) : State.reset.chan c = resetChan := by simp [State.chan, State.reset]
theorem State.reset_guard (c : ChanId) : State.reset.guard c = resetGuard := by simp [State.guard, State.reset]
theorem State.reset_block (c : ChanId) : State.reset.blocks[c] = resetBlock := by simp [State.reset]
theorem State.reset_interval (c : ChanId) : State.reset.intervals[c] = resetInterval := by simp [State.reset]
theorem State.reset_port (p : Port) : State.reset.port p = resetPort := perPort_get resetPort p
theorem State.reset_portOut (p : Port) : State.reset.portOut.get p = none := perPort_get none p
theorem State.reset_feedOn (f : Feed) : State.reset.feedOn.get f = false := perFeed_get false f

theorem State.reset_shadow (c : ChanId) : State.reset.scenes.shadow[c] = resetScene := by
  simp [State.reset, resetScenes]

/-- Each feed's slot map at power-on: slot i holds channel i (R65). -/
theorem State.reset_slot (f : Feed) (i : SlotId) : (State.reset.slots.get f)[i] = some i := by
  have hslots : State.reset.slots.get f = resetSlots := perFeed_get resetSlots f
  rw [hslots]
  simp [resetSlots]

/-! ### The exchange memory at power-on -/

/-- The status area shows the part, its revision and the cursor at the anchor, and is 0 beyond (R165, R168). -/
theorem State.reset_statusBytes : ∀ a < 64,
    State.reset.statusBytes.getD a 0#8 = ([0x40#8, 0x06#8, 0x01#8, 0#8, 0x40#8] : List Byte).getD a 0#8 := by decide

theorem State.reset_readMem_status {a : Nat} (h : a < 0x40) :
    State.reset.readMem a = ([0x40#8, 0x06#8, 0x01#8, 0#8, 0x40#8] : List Byte).getD a 0#8 := by
  rw [State.readMem, if_pos (show a < Config.anchor from h), State.reset_statusBytes a h]

/-- Every byte outside the status area is 0 (R164). -/
theorem State.reset_readMem_rest {a : Nat} (h : 0x40 ≤ a) : State.reset.readMem a = 0#8 := by
  rw [State.readMem, if_neg (show ¬ a < Config.anchor from Nat.not_lt.2 h)]
  rfl

/-- Settles O9: POWER_ON_RESET leaves nothing but the commands that wait, and each table holds one value throughout. -/
theorem powerOnValues : Obligations.PowerOnValues := by
  unfold Obligations.PowerOnValues
  refine fun s => ⟨{ State.reset with pending := s.pending }, rfl, rfl, rfl, rfl, rfl, fun g => ?_, State.reset_board,
    ⟨rfl, rfl, rfl⟩, fun c f => ?_, fun c => ?_, State.reset_feedOn, State.reset_slot, fun c => ?_, State.reset_guard,
    ⟨rfl, rfl, rfl⟩, fun c => ?_, fun p => ?_, ?_, ?_, fun a => State.reset_readMem_status,
    fun a => State.reset_readMem_rest⟩
  · change State.reset.lanes[g].fault = true ∧ State.reset.lanes[g].run = 0
    rw [State.reset_lane]
    exact ⟨rfl, rfl⟩
  · have hx : ({ State.reset with pending := s.pending } : State).xp c f = resetXp := State.reset_xp c f
    rw [hx]
    exact ⟨rfl, rfl, rfl, rfl, rfl, rfl⟩
  · have hc : ({ State.reset with pending := s.pending } : State).chan c = resetChan := State.reset_chan c
    rw [hc]
    repeat' constructor
  · exact ⟨State.reset_block c, State.reset_interval c⟩
  · change State.reset.scenes.shadow[c].target = _ ∧ State.reset.scenes.shadow[c].owner = _ ∧
      ∀ f, State.reset.scenes.shadow[c].feeds.get f = _
    rw [State.reset_shadow]
    exact ⟨rfl, rfl, fun f => perFeed_get resetSceneFeed f⟩
  · have hp : ({ State.reset with pending := s.pending } : State).port p = resetPort := State.reset_port p
    rw [hp]
    exact ⟨rfl, rfl, rfl, rfl, rfl, rfl, rfl, rfl, State.reset_portOut p⟩
  · repeat' constructor
  · have hn : State.reset.ex.notice = 0#5 := by decide
    exact ⟨rfl, rfl, rfl, hn, rfl, rfl, rfl, rfl, rfl, rfl, rfl, rfl, rfl, rfl, rfl, rfl, rfl, rfl, rfl, rfl, rfl, rfl⟩

end Sys2Proof.Machine
end

section
/-! PROOFS. One lane's frame of the period (R23 to R25). -/

namespace Sys2Proof.Machine

/-- The frame of a lane that has none judged yet in the period: the lane's record, its eight samples and its event. -/
theorem exec_laneFrame {s : State} {g : LaneId} (hj : s.lanes[g].judged = false) {f : LaneInput} {l : Lane}
    {es : List Event} (hr : s.lanes[g].receive g (LaneInputGood f) = (l, es)) :
    exec (.laneFrame g f) s = .next { s with
      lanes := upd s.lanes g l
      samples := tab fun c => if boardOf c = g then (if l.fault then 0 else frameSample f (placeOf c)) else s.samples[c]
      ex := s.ex.joinAll s.frame es } := by
  change Host.Outcome.next (s.judgeLane g f) = _
  rw [State.judgeLane, hj, hr]
  rfl

section receive
variable {l : Lane} (g : LaneId)

/-- A bad frame (R24). -/
theorem Lane.receive_bad : l.receive g false =
    ({ fault := true, run := 0, judged := true }, if l.fault then [] else [.input g true]) := rfl

/-- A good frame on a lane IN_SYNC (R25). -/
theorem Lane.receive_inSync (h : l.fault = false) : l.receive g true = ({ l with judged := true }, []) := by
  simp [Lane.receive, h]

/-- A good frame on a faulted lane that is not its sixteenth (R25). -/
theorem Lane.receive_short (h : l.fault = true) (hr : l.run + 1 < 16) :
    l.receive g true = ({ fault := true, run := l.run + 1, judged := true }, []) := by
  simp [Lane.receive, h, Nat.not_le.2 hr]

/-- The sixteenth good frame on a faulted lane (R25). -/
theorem Lane.receive_sixteenth (h : l.fault = true) (hr : l.run + 1 = 16) :
    l.receive g true = ({ fault := false, run := 0, judged := true }, [.input g false]) := by
  simp [Lane.receive, h, hr]

end receive

/-- Settles O14: a bad frame carries no samples, and its event is the one that `Lane.receive` raises. -/
theorem badFrameFaultsLane : Obligations.BadFrameFaultsLane := by
  unfold Obligations.BadFrameFaultsLane
  intro s g f hj hf
  have hgood : LaneInputGood f = false := by rcases hf with rfl | rfl <;> rfl
  refine ⟨?_, rfl⟩
  rw [exec_laneFrame hj (by rw [hgood, Lane.receive_bad])]
  cases s.lanes[g].fault <;> rfl

/-- Settles O15: the run of good frames decides between the three outcomes of `Lane.receive`. -/
theorem goodFrameRecoversLane : Obligations.GoodFrameRecoversLane := by
  unfold Obligations.GoodFrameRecoversLane
  intro s g v hj
  refine ⟨fun hf => ?_, fun hf hr => ?_, fun hf hr => ?_, rfl⟩
  · have h := exec_laneFrame (f := .good v) hj (Lane.receive_inSync g hf)
    simp only [hf] at h ⊢
    exact h
  · exact exec_laneFrame (f := .good v) hj (Lane.receive_short g hf hr)
  · exact exec_laneFrame (f := .good v) hj (Lane.receive_sixteenth g hf hr)

end Sys2Proof.Machine
end

section
/-! PROOFS. The characters of the preamp line: what is sent and how an answer is judged (R28 to R34, R184). -/

namespace Sys2Proof.Machine

/-- The check bit of a character that is sent makes the parity even (R28). -/
theorem evenParity_sendChar (data : Byte) (address : Bool) : evenParity (sendChar data address) = true := by
  have hcheck (n : Nat) : (n + (n % 2 == 1).toNat) % 2 = 0 := by
    rcases Nat.mod_two_eq_zero_or_one n with h | h <;> simp only [h] <;> simp <;> omega
  simpa [evenParity, sendChar] using hcheck (onesOf data + address.toNat)

/-- A character goes out in twelve bits (R28). -/
theorem charBits_length (ch : LineChar) : (charBits ch).length = 12 := by simp [charBits]

/-- A character that is sent is sound, so that only its content can fail (R29). -/
theorem charError_sendChar (k : TxKind) (n : Nat) (data : Byte) (address : Bool) :
    charError k n (sendChar data address) = if contentFails k n (sendChar data address) then some .check else none := by
  rw [charError, if_neg (by simp [sendChar]), if_neg (by rw [evenParity_sendChar]; simp)]

/-- An address character's data is 16 times the board's number plus the command (R30). -/
theorem addressData_toNat (b : BoardId) {command : Nat} (h : command < 16) :
    (addressData b command).toNat = b.val * 16 + command := by
  rw [addressData, u8, BitVec.toNat_ofNat]
  omega

/-- The first data character of a STEP carries the place within the board, the pad and the phantom, and no fault flag (R32,
R184). -/
theorem stepFirst_fields : ∀ (place : Fin 8) (pad phantom : Bool),
    let first := u8 (place.val + (if pad then 8 else 0) + if phantom then 16 else 0)
    first.toNat % 8 = place.val ∧ first.getLsbD 3 = pad ∧ first.getLsbD 4 = phantom ∧ pairFault first = false := by
  decide

/-- The position of an analog code fits in the second data character, and gives the code back (R1, R3, R32). -/
theorem position_fields {x : Setting} (h : x.legal) :
    (u8 (positionOf x.analog)).toNat % 64 = positionOf x.analog ∧ positionOf x.analog ≤ 40 ∧
      (6 * (positionOf x.analog : Nat) : Int) = x.analog := by
  obtain ⟨h0, h240, h6⟩ := h
  have hle : positionOf x.analog ≤ 40 := by unfold positionOf; omega
  refine ⟨?_, hle, by unfold positionOf; omega⟩
  rw [u8, BitVec.toNat_ofNat]
  omega

/-- Settles O16: the first data character's bits are the place, the pad and the phantom, and six times the second one's
position is the code. -/
theorem stepCharactersCarryState : Obligations.StepCharactersCarryState := by
  unfold Obligations.StepCharactersCarryState
  intro c sent hlegal
  obtain ⟨hplace, hpad, hphantom, hfault⟩ := stepFirst_fields (placeOf c) sent.setting.padIn sent.phantom
  obtain ⟨hposition, hle, hcode⟩ := position_fields hlegal
  refine ⟨_, _, _, rfl, fun ch hch => ?_, rfl, rfl, rfl, addressData_toNat _ (by decide), hplace, ?_, hfault, ?_, ?_⟩
  · simp only [stepChars, List.mem_cons, List.not_mem_nil, or_false] at hch
    rcases hch with rfl | rfl | rfl <;> exact ⟨rfl, evenParity_sendChar _ _, charBits_length _⟩
  · simp only [pairState, sendChar, hpad, hphantom, hposition, hcode]
  · rw [charError_sendChar, if_neg]
    simpa [contentFails, sendChar, TxKind.place] using hplace
  · rw [charError_sendChar, if_neg]
    simpa [contentFails, sendChar, hposition] using hle

/-- The content checks pass where the character is no address character, echoes its place, or holds a position up to 40
(R33, R34). -/
theorem contentFails_eq_false {k : TxKind} {n : Nat} {ch : LineChar} : contentFails k n ch = false ↔
    ch.address = false ∧ (n % 2 = 0 → ch.data.toNat % 8 = k.place n) ∧ (n % 2 = 1 → ch.data.toNat % 64 ≤ 40) := by
  rcases Nat.mod_two_eq_zero_or_one n with h | h <;> simp [contentFails, h]

/-- How an answer character is judged: a bad stop bit first, and then parity and content alike (R29, R33, R34). -/
theorem charError_eq {k : TxKind} {n : Nat} {ch : LineChar} {sound fits : Bool} (hs : sound = evenParity ch)
    (hf : fits = !contentFails k n ch) : charError k n ch =
      if ch.stop = false then some .framing else if sound = true ∧ fits = true then none else some .check := by
  subst hs hf
  unfold charError
  cases ch.stop <;> cases evenParity ch <;> cases contentFails k n ch <;> rfl

end Sys2Proof.Machine
end

section
/-! PROOFS. The arbiter: who asks, which class is served and where the search begins (R42 to R45), and the transaction that a
grant starts (R31, R75, R89). -/

namespace Sys2Proof.Machine

/-! ### The search from a pointer -/

/-- How far after a pointer a requester stands, with wrap-around (R44). -/
def distanceFrom (p r : ReqId) : Nat := (r.val + 72 - p.val) % 72

theorem searchOrder_length (p : ReqId) : (searchOrder p).length = 72 := by simp [searchOrder, indices]

/-- The place i of a search is held by the requester i after the pointer. -/
theorem searchOrder_getElem_iff {p r : ReqId} {i : Nat} (h : i < (searchOrder p).length) :
    (searchOrder p)[i] = r ↔ distanceFrom p r = i := by
  rw [searchOrder_length] at h
  simp only [searchOrder, indices, List.getElem_map, List.getElem_finRange, Fin.ext_iff, distanceFrom, Fin.val_cast]
  omega

theorem mem_searchOrder (p r : ReqId) : r ∈ searchOrder p :=
  List.mem_of_getElem ((searchOrder_getElem_iff
    (by rw [searchOrder_length]; exact Nat.mod_lt _ (by omega))).2 (rfl : distanceFrom p r = _))

/-- A search finds the candidate that stands nearest after the pointer (R44). -/
theorem searchOrder_find?_nearest {p r : ReqId} {candidate : ReqId → Bool}
    (h : (searchOrder p).find? candidate = some r) {q : ReqId} (hq : candidate q = true) :
    distanceFrom p r ≤ distanceFrom p q := by
  obtain ⟨-, i, hi, hr, hbefore⟩ := List.find?_eq_some_iff_getElem.1 h
  rw [(searchOrder_getElem_iff hi).1 hr]
  by_contra hlt
  have hat : (searchOrder p)[distanceFrom p q] = q := (searchOrder_getElem_iff (by omega)).2 rfl
  have hnot := hbefore (distanceFrom p q) (by omega)
  rw [hat, hq] at hnot
  exact absurd hnot (by decide)

/-! ### A decision -/

/-- A decision's choice: the class, whether an ORDINARY requester asks, and the first candidate of that class from its pointer
on (R44, R45). -/
theorem State.choose_eq_some {s : State} {first : Option ReqId} {r : ReqId} {urgent o : Bool}
    (h : s.choose first = some (r, urgent, o)) :
    o = ((indices 72).any fun q => s.considered first q && !s.urgentReq q) ∧
      urgent = chooseUrgent s.arb.fairness ((indices 72).any fun q => s.considered first q && s.urgentReq q) o ∧
      (searchOrder (if urgent then s.arb.urgentPtr else s.arb.ordinaryPtr)).find?
        (fun q => s.considered first q && (s.urgentReq q == urgent)) = some r := by
  unfold State.choose at h
  simp only [Option.map_eq_some_iff, Prod.mk.injEq] at h
  obtain ⟨q, hq, rfl, rfl, rfl⟩ := h
  exact ⟨rfl, rfl, hq⟩

/-- The class chosen has a candidate, where any requester is considered: URGENT is chosen only where an URGENT one is, and
ORDINARY only where an ORDINARY one is or no URGENT one (R45). -/
theorem exists_of_chooseUrgent (fairness : Nat) {considered marked : ReqId → Bool} {q : ReqId} (hq : considered q = true) :
    ∃ r, considered r = true ∧ marked r = chooseUrgent fairness ((indices 72).any fun r => considered r && marked r)
      ((indices 72).any fun r => considered r && !marked r) := by
  have hu : ((indices 72).any fun r => considered r && marked r) = true ↔
      ∃ r, considered r = true ∧ marked r = true := by simp
  have ho : ((indices 72).any fun r => considered r && !marked r) = true ↔
      ∃ r, considered r = true ∧ marked r = false := by simp
  generalize ((indices 72).any fun r => considered r && marked r) = u at hu ⊢
  generalize ((indices 72).any fun r => considered r && !marked r) = o at ho ⊢
  cases o with
  | true =>
    cases hclass : chooseUrgent fairness u true with
    | true =>
      simp only [chooseUrgent, Bool.and_eq_true] at hclass
      exact hu.1 hclass.2
    | false => exact ho.1 rfl
  | false =>
    have hmarked : marked q = true := by
      by_contra h
      exact Bool.false_ne_true (ho.2 ⟨q, hq, Bool.eq_false_iff.2 h⟩)
    have hu : u = true := hu.2 ⟨q, hq, hmarked⟩
    exact ⟨q, hq, by simp [chooseUrgent, hmarked, hu]⟩

/-- No requester is granted only where none is considered (R43). -/
theorem State.choose_eq_none {s : State} {first : Option ReqId} :
    s.choose first = none ↔ ∀ q, s.considered first q = false := by
  unfold State.choose
  simp only [Option.map_eq_none_iff, List.find?_eq_none, mem_searchOrder, forall_const]
  refine ⟨fun h q => ?_, fun h q => by rw [h q]; simp⟩
  by_contra hq
  obtain ⟨r, hr, hclass⟩ :=
    exists_of_chooseUrgent s.arb.fairness (marked := s.urgentReq) (Bool.eq_true_of_not_eq_false hq)
  exact h r (by rw [hr, hclass]; simp)

/-! ### Who asks (R42, R88) -/

/-- The requesters are the channels and then the boards. -/
theorem requesterOf_eq_inl {q : ReqId} {c : ChanId} : requesterOf q = .inl c ↔ q.val = c.val := by
  unfold requesterOf
  split
  · simp [Fin.ext_iff]
  · simp; omega

theorem requesterOf_eq_inr {q : ReqId} {b : BoardId} : requesterOf q = .inr b ↔ q.val = 64 + b.val := by
  unfold requesterOf
  split
  · simp; omega
  · simp [Fin.ext_iff]; omega

/-- A channel asks in LINE_WAIT, or for a phantom change outside ACK_WAIT and SUSPECT (R42, R88). -/
theorem Chan.asks_iff {ch : Chan} : ch.asks = true ↔ ch.op = .lineWait ∨
    (ch.phantomTgt ≠ ch.ackPhantom ∧ ch.op ≠ .ackWait ∧ ch.op ≠ .suspect) := by
  by_cases h : ch.op = .lineWait <;> simp [Chan.asks, Chan.asksPhantom, h, and_assoc]

theorem State.asks_iff {s : State} {q : ReqId} : s.asks q = true ↔
    (∃ c : ChanId, q.val = c.val ∧ ((s.chan c).op = .lineWait ∨
      ((s.chan c).phantomTgt ≠ (s.chan c).ackPhantom ∧ (s.chan c).op ≠ .ackWait ∧ (s.chan c).op ≠ .suspect))) ∨
    ∃ b : BoardId, q.val = 64 + b.val ∧ (s.board b).request = .asking := by
  unfold State.asks
  simp only [← requesterOf_eq_inl, ← requesterOf_eq_inr, ← Chan.asks_iff]
  cases requesterOf q <;> simp

/-- A channel that asks for a marked step is URGENT, and no other requester (R42). -/
theorem State.urgentReq_iff {s : State} {q : ReqId} : s.urgentReq q = true ↔
    ∃ c : ChanId, q.val = c.val ∧ (s.chan c).op = .lineWait ∧ (s.chan c).urgent = true := by
  unfold State.urgentReq
  simp only [← requesterOf_eq_inl]
  cases requesterOf q <;> simp [Chan.asksUrgent]

/-- A decision considers all that ask, or, where one is said to have asked first and asks, that one alone (R43). -/
theorem State.considered_iff {s : State} {first q : ReqId} : s.considered (some first) q = true ↔
    s.asks q = true ∧ (s.arb.together = true ∨ ¬ s.asks first = true ∨ q = first) := by
  by_cases ht : s.arb.together = true
  · simp [State.considered, ht]
  · by_cases hf : s.asks first = true
    · simp only [State.considered, ht, hf, Bool.not_true, Bool.or_false]
      simp only [Bool.false_eq_true, if_false, beq_iff_eq, not_true_eq_false, false_or]
      exact ⟨fun h => ⟨h ▸ hf, h⟩, fun h => h.2⟩
    · simp [State.considered, hf]

/-- Settles O17: the class chosen is never empty, and the search takes its first candidate. -/
theorem decisionIsFair : Obligations.DecisionIsFair := by
  unfold Obligations.DecisionIsFair
  intro s first asks marked considered hasks hmarked hconsidered
  have hasks (q : ReqId) : asks q ↔ s.asks q = true := (hasks q).trans State.asks_iff.symm
  have hmarked (q : ReqId) : marked q ↔ s.urgentReq q = true := (hmarked q).trans State.urgentReq_iff.symm
  have hconsidered (q : ReqId) : considered q ↔ s.considered (some first) q = true := by
    rw [hconsidered, State.considered_iff, hasks, hasks]
  simp only [hasks, hmarked, hconsidered]
  refine ⟨?_, fun r urgent o h => ?_⟩
  · rw [State.choose_eq_none]
    refine ⟨fun h q hq => ?_, fun h q => ?_⟩
    · have hfirst := mt State.considered_iff.2 (Bool.eq_false_iff.1 (h first))
      have hq' := mt State.considered_iff.2 (Bool.eq_false_iff.1 (h q))
      by_cases hf : s.asks first = true
      · exact hfirst ⟨hf, .inr (.inr rfl)⟩
      · exact hq' ⟨hq, .inr (.inl hf)⟩
    · exact Bool.eq_false_iff.2 fun hq => h q (State.considered_iff.1 hq).1
  · obtain ⟨ho, hclass, hfind⟩ := State.choose_eq_some h
    have hr := List.find?_some hfind
    simp only [Bool.and_eq_true, beq_iff_eq] at hr
    have hoiff : o = true ↔ ∃ q, s.considered (some first) q = true ∧ ¬ s.urgentReq q = true := by
      rw [ho]; simp
    refine ⟨hr.1, by rw [hr.2], hoiff, fun h4 ho' => ?_, fun hn => ?_, fun q hq hu => ?_, ?_, ?_, ?_⟩
    · rw [hclass, h4, ho']; rfl
    · have hu : urgent = (indices 72).any fun q => s.considered (some first) q && s.urgentReq q := by
        have hserved : (s.arb.fairness == 4 && o) = false := by simpa using hn
        rw [hclass, chooseUrgent, hserved]; rfl
      rw [hu]; simp
    · refine searchOrder_find?_nearest hfind ?_
      rw [hq, Bool.true_and, beq_iff_eq, Bool.eq_iff_iff]
      exact hu
    · cases urgent <;> rfl
    · cases urgent <;> rfl
    · rfl

/-! ### The transaction of a grant -/

/-- A grant on an idle line starts the requester's transaction and moves the arbiter (R31, R44, R45). -/
theorem exec_arbiterDecision {s : State} {first r : ReqId} {urgent o : Bool} (hl : s.line = none)
    (h : s.choose (some first) = some (r, urgent, o)) :
    exec (.arbiterDecision first) s = .next { s.startFor r with arb := s.arb.afterGrant r urgent o } := by
  change Host.Outcome.next (s.arbitrate (some first)) = _
  rw [State.arbitrate, hl, h]
  rfl

/-- The step of a grant in LINE_WAIT short of the target: the pad first, and then one step up or down (R75). -/
theorem Chan.nextStep_cases (ch : Chan) :
    (ch.tgt.padIn ≠ ch.ack.padIn → ch.nextStep = (.pad, { ch.ack with padIn := ch.tgt.padIn })) ∧
    (ch.tgt.padIn = ch.ack.padIn → ch.ack.analog < ch.tgt.analog →
      ch.nextStep = (.up, { ch.ack with analog := ch.ack.analog + 6 })) ∧
    (ch.tgt.padIn = ch.ack.padIn → ch.tgt.analog < ch.ack.analog →
      ch.nextStep = (.down, { ch.ack with analog := ch.ack.analog - 6 })) := by
  refine ⟨fun h => ?_, fun h hlt => ?_, fun h hlt => ?_⟩
  · rw [Chan.nextStep, if_pos h]
  · rw [Chan.nextStep, if_neg (not_not.2 h), if_pos hlt]
  · rw [Chan.nextStep, if_neg (not_not.2 h), if_neg (by omega), if_pos hlt]

/-- A grant in LINE_WAIT sends the step of that moment with the phantom target (R75). -/
theorem Chan.granted_lineWait {ch : Chan} {carried : CarriedStep} {sent : Setting} (h : ch.op = .lineWait)
    (hn : ch.nextStep = (carried, sent)) : ch.toSend = ⟨sent, ch.phantomTgt⟩ ∧
      ch.granted = { ch with
        op := .ackWait, carried := carried, resume := .idle, lastSent := some ⟨⟨sent, ch.phantomTgt⟩, false⟩ } := by
  simp [Chan.granted, Chan.toSend, h, hn]

/-- A grant outside LINE_WAIT sends the acknowledged setting with the phantom target (R89). -/
theorem Chan.granted_phantom {ch : Chan} {resume : ResumeState} (h : (ch.op = .idle ∧ resume = .idle) ∨
    (ch.op = .zcWait ∧ resume = .zcWait) ∨ (ch.op = .settling ∧ resume = .settling)) :
    ch.toSend = ⟨ch.ack, ch.phantomTgt⟩ ∧
      ch.granted = { ch with
        op := .ackWait, carried := .nothing, resume := resume
        lastSent := some ⟨⟨ch.ack, ch.phantomTgt⟩, false⟩ } := by
  rcases h with ⟨h, rfl⟩ | ⟨h, rfl⟩ | ⟨h, rfl⟩ <;> simp [Chan.granted, Chan.toSend, h]

/-- Settles O18: a grant starts the transaction of `Chan.granted` for a channel, and of `readbackChars` for a board. -/
theorem grantStartsTransaction : Obligations.GrantStartsTransaction := by
  unfold Obligations.GrantStartsTransaction
  intro s first r urgent o hl hchoose
  rw [exec_arbiterDecision hl hchoose]
  refine ⟨fun c hc carried sent resume hform => ?_, fun b hb => ?_⟩
  · have hgrant : (s.chan c).toSend = ⟨sent, (s.chan c).phantomTgt⟩ ∧
        (s.chan c).granted = { s.chan c with
          op := .ackWait, carried := carried, resume := resume
          lastSent := some ⟨⟨sent, (s.chan c).phantomTgt⟩, false⟩ } := by
      obtain ⟨hpad, hup, hdown⟩ := (s.chan c).nextStep_cases
      rcases hform with ⟨hop, rfl, ⟨h, rfl, rfl⟩ | ⟨h, hlt, rfl, rfl⟩ | ⟨h, hlt, rfl, rfl⟩⟩ | ⟨rfl, rfl, hop⟩
      · exact Chan.granted_lineWait hop (hpad h)
      · exact Chan.granted_lineWait hop (hup h hlt)
      · exact Chan.granted_lineWait hop (hdown h hlt)
      · exact Chan.granted_phantom hop
    obtain ⟨hsend, hgranted⟩ := hgrant
    simp only [State.startFor, hc, State.startStep, hsend, hgranted, State.setChan]
  · refine ⟨sendChar (addressData b 2) true, addressData_toNat b (by decide), rfl, rfl, evenParity_sendChar _ _, ?_⟩
    simp only [State.startFor, hb, State.startReadback, State.setBoard, readbackChars]

end Sys2Proof.Machine
end

section
/-! PROOFS. A transaction in flight: the characters that are counted, and how it fails (R29, R35, R37, R82, R83). -/

namespace Sys2Proof.Machine

/-! ### The characters of an answer -/

/-- A character on an IDLE line is discarded (R29). -/
theorem exec_answerCharacter_idle {s : State} (ch : LineChar) (hl : s.line = none) :
    exec (.answerCharacter ch) s = .next s := by
  change Host.Outcome.next (s.receiveChar ch) = _
  rw [State.receiveChar, hl]

/-- A character before the last is counted (R35). -/
theorem exec_answerCharacter_before {s : State} {t : InFlight} (ch : LineChar) (hl : s.line = some t)
    (hn : t.data.length + 1 < t.kind.expected) :
    exec (.answerCharacter ch) s = .next { s with line := some (t.receive ch) } := by
  change Host.Outcome.next (s.receiveChar ch) = _
  rw [State.receiveChar, hl]
  exact congrArg _ (if_neg (by simpa [InFlight.receive] using hn))

/-- The last character ends the transaction (R35). -/
theorem exec_answerCharacter_last {s : State} {t : InFlight} (ch : LineChar) (hl : s.line = some t)
    (hn : t.data.length + 1 = t.kind.expected) :
    exec (.answerCharacter ch) s = .next (s.txComplete (t.receive ch)) := by
  change Host.Outcome.next (s.receiveChar ch) = _
  rw [State.receiveChar, hl]
  exact congrArg _ (if_pos (by simp [InFlight.receive, hn]))

/-- The window's expiry ends the transaction with its first error, or TIMEOUT (R35). -/
theorem exec_answerWindowExpiry {s : State} {t : InFlight} (hl : s.line = some t) (hw : 96 ≤ t.window) :
    exec .answerWindowExpiry s = .next (s.txFails t (t.firstError.getD .timeout)).freeLine := by
  change Host.Outcome.next s.windowExpires = _
  rw [State.windowExpires, hl]
  exact congrArg _ (if_pos hw)

/-- After an earlier error a character is counted and the error kept (R35). -/
theorem InFlight.receive_of_error {t : InFlight} {e : LineError} (ch : LineChar) (he : t.firstError = some e) :
    t.receive ch = { t with data := t.data ++ [ch.data], firstError := some e } := by
  simp only [InFlight.receive, he]

/-- With no error before it a character is counted and judged (R35). -/
theorem InFlight.receive_of_no_error {t : InFlight} (ch : LineChar) (he : t.firstError = none) :
    t.receive ch = { t with data := t.data ++ [ch.data], firstError := charError t.kind t.data.length ch } := by
  simp only [InFlight.receive, he]

/-- Settles O19: a character before the last is kept, and judged by its stop bit, its parity and its content. -/
theorem answerCharacterIsCounted : Obligations.AnswerCharacterIsCounted := by
  unfold Obligations.AnswerCharacterIsCounted
  intro s ch
  refine ⟨exec_answerCharacter_idle ch, ?_⟩
  rintro t n ones place sound fits hl rfl hlast rfl hsound hplace hfits
  have hs : sound = evenParity ch := by
    rw [Bool.eq_iff_iff, hsound, evenParity, beq_iff_eq]; rfl
  have hplace : t.kind.place t.data.length = place := by
    rcases hplace with ⟨c, sent, hk, rfl⟩ | ⟨hk, rfl⟩ <;> rw [hk] <;> rfl
  have hf : fits = !contentFails t.kind t.data.length ch := by
    rw [Bool.eq_iff_iff, hfits, Bool.not_eq_true', contentFails_eq_false, hplace]
  refine (exec_answerCharacter_before ch hl hlast).trans ?_
  cases he : t.firstError with
  | some e =>
    exact congrArg (fun l : InFlight => Host.Outcome.next ({ s with line := some l } : State))
      (t.receive_of_error ch he)
  | none =>
    have hreceive := t.receive_of_no_error ch he
    rw [charError_eq hs hf] at hreceive
    exact congrArg (fun l : InFlight => Host.Outcome.next ({ s with line := some l } : State))
      hreceive

/-! ### Failure -/

/-- A record put in place at the same applied level leaves the crosspoints alone. -/
theorem State.putChan_of_level {s : State} {c : ChanId} {r : Chan × List Event} (h : r.1.level = (s.chan c).level) :
    s.putChan c r = { s with chans := upd s.chans c r.1, ex := s.ex.joinAll s.frame r.2 } := by
  rw [State.putChan, if_pos h]

/-- A command by which the transaction in flight ends in failure: the expiry of its window, or a last character with which it
or an earlier one is faulty (R35). -/
def InFlight.FailsBy (t : InFlight) (i : Instr) (err : LineError) : Prop :=
  (i = .answerWindowExpiry ∧ 96 ≤ t.window ∧ err = t.firstError.getD .timeout) ∨
    ∃ ch, i = .answerCharacter ch ∧ t.data.length + 1 = t.kind.expected ∧
      (t.firstError = some err ∨ (t.firstError = none ∧ charError t.kind t.data.length ch = some err))

/-- What fails a transaction ends it in failure, and frees the line (R35, R37). -/
theorem InFlight.FailsBy.exec {s : State} {t : InFlight} {i : Instr} {err : LineError} (h : t.FailsBy i err)
    (hl : s.line = some t) : exec i s = .next (s.txFails t err).freeLine := by
  rcases h with ⟨rfl, hw, rfl⟩ | ⟨ch, rfl, hn, he⟩
  · exact exec_answerWindowExpiry hl hw
  · have herr : (t.receive ch).firstError = some err := by
      rcases he with he | ⟨he, hc⟩
      · rw [t.receive_of_error ch he]
      · rw [t.receive_of_no_error ch he, hc]
    rw [exec_answerCharacter_last ch hl hn, State.txComplete, herr]
    rfl

/-- What a failure makes of the board in flight: its count and state (R37), and its readback request. -/
def InFlight.failedBoard (t : InFlight) (x : Board) : Board :=
  match t.kind with
  | .step _ _ => { x.failed with request := .asking, countdown := 0 }
  | .readback => if x.failed.request = .idle then { x.failed with request := .deferred, countdown := 100 } else x.failed

/-- What a failure hands over before an OFFLINE event (R37, R41, R82). -/
def InFlight.failEvents (t : InFlight) (s : State) (err : LineError) : List Event :=
  match t.kind with
  | .step c _ => ((s.chan c).failStep c).2 ++
      [.preamp t.board (.stepFailed c err (s.board t.board).failed.failures)]
  | .readback => []

/-- What a failure makes of the channels, before an OFFLINE board is dealt with: a STEP's becomes SUSPECT (R82, R83). -/
def InFlight.failedChans (t : InFlight) (s : State) : Vector Chan 64 :=
  match t.kind with
  | .step c _ => upd s.chans c ((s.chan c).failStep c).1
  | .readback => s.chans

/-- A channel after its STEP has failed, and the event of a cancel note that it held (R82, R83). -/
theorem Chan.failStep_eq (c : ChanId) (ch : Chan) : ch.failStep c =
    ({ ch with
        op := .suspect, lastSent := ch.lastSent.map fun l => { l with failed := true }
        opened := ch.opened && ch.note.isNone, note := none },
      (ch.note.map fun n => .gainCancelled c n ch.ack ch.ackPhantom ch.level).toList) := by
  unfold Chan.failStep
  cases ch.note <;> simp [Chan.cancelledEvent]

/-- The state after a failure, before an OFFLINE board is dealt with. -/
def State.withFailure (s : State) (t : InFlight) (err : LineError) : State :=
  { s with
    chans := t.failedChans s, boards := upd s.boards t.board (t.failedBoard (s.board t.board))
    ex := s.ex.joinAll s.frame (t.failEvents s err) }

section failure
variable {s : State} {t : InFlight} (err : LineError)

theorem State.withFailure_board : (s.withFailure t err).board t.board = t.failedBoard (s.board t.board) := by
  simp only [State.board, State.withFailure, Fin.getElem_fin, upd_same]

/-- The channel of a STEP that has failed. -/
theorem State.withFailure_chan_step {c : ChanId} {sent : SentState} (hk : t.kind = .step c sent) :
    (s.withFailure t err).chan c = ((s.chan c).failStep c).1 := by
  simp only [State.chan, State.withFailure, InFlight.failedChans, hk, Fin.getElem_fin, upd_same]

/-- Every other channel is left as it is. -/
theorem State.withFailure_chan_other {c : ChanId} (hc : ∀ sent, t.kind ≠ .step c sent) :
    (s.withFailure t err).chan c = s.chan c := by
  obtain ⟨kind, board, data, firstError, window⟩ := t
  cases kind with
  | step d sent => exact upd_other _ _ fun hd => hc sent (hd ▸ rfl)
  | readback => rfl

/-- A failed STEP (R37 step 1, R82, R83). -/
theorem State.stepFails_eq {c : ChanId} {sent : SentState} (hk : t.kind = .step c sent) (hb : t.board = boardOf c) :
    s.stepFails c err = s.withFailure t err := by
  have hcount : ((s.setBoard (boardOf c) { (s.board (boardOf c)).failed with request := .asking, countdown := 0 }).board
      (boardOf c)).failures = (s.board (boardOf c)).failed.failures := by rw [State.setBoard_board, if_pos rfl]
  simp only [State.withFailure, InFlight.failedChans, InFlight.failedBoard, InFlight.failEvents, hk, hb, State.stepFails,
    hcount, Exchange.joinAll_append]
  rw [State.putChan_of_level rfl]
  rfl

/-- A failed READBACK (R37 step 2). -/
theorem State.readbackFails_eq (hk : t.kind = .readback) : s.readbackFails t.board = s.withFailure t err := by
  simp only [State.withFailure, State.readbackFails, InFlight.failedChans, InFlight.failedBoard, InFlight.failEvents, hk]
  rfl

/-- All that a failure does: the count, the request, a STEP's channel and events, and, where it moved the board from ONLINE to
OFFLINE, what R37 step 3 gives. -/
theorem State.txFails_eq (hstep : ∀ c sent, t.kind = .step c sent → t.board = boardOf c) :
    s.txFails t err =
      if (s.board t.board).offline = false ∧ (t.failedBoard (s.board t.board)).offline = true then
        (s.withFailure t err).boardOffline t.board err
      else s.withFailure t err := by
  unfold State.txFails
  cases hk : t.kind with
  | step c sent => simp [State.stepFails_eq err hk (hstep c sent hk), State.withFailure_board]
  | readback => simp [State.readbackFails_eq err hk, State.withFailure_board]

end failure

/-! ### Failures that leave the board's state, and the third in a row -/

/-- A failure short of the third in a row, or on an OFFLINE board, leaves the board's state (R37). -/
theorem Board.failed_of_short {x : Board} (h : x.failures < 2 ∨ x.offline = true) :
    x.failed = { x with failures := min 3 (x.failures + 1) } := by
  unfold Board.failed
  rcases h with h | h
  · rw [decide_eq_false (by omega), Bool.or_false]
  · rw [h, Bool.true_or]

/-- The third failure in a row takes an ONLINE board OFFLINE (R37). -/
theorem Board.failed_of_third {x : Board} (h : x.failures = 2) : x.failed = { x with offline := true, failures := 3 } := by
  simp [Board.failed, h]

theorem InFlight.failedBoard_offline (t : InFlight) (x : Board) : (t.failedBoard x).offline = x.failed.offline := by
  unfold InFlight.failedBoard
  split
  · rfl
  · split <;> rfl

/-- Settles O22: a failure that takes no board OFFLINE is `State.withFailure`, and then the line is free. -/
theorem windowExpiryFailsStep : Obligations.WindowExpiryFailsStep := by
  unfold Obligations.WindowExpiryFailsStep
  intro s t i err b n hl hb hshort hn hi
  subst hb hn
  have hfailed := Board.failed_of_short hshort
  have hstays : ¬ ((s.board t.board).offline = false ∧ (t.failedBoard (s.board t.board)).offline = true) := by
    rw [InFlight.failedBoard_offline, hfailed]
    rintro ⟨h0, h1⟩
    exact Bool.false_ne_true (h0.symm.trans h1)
  have hexec (hstep : ∀ c sent, t.kind = .step c sent → t.board = boardOf c) :
      exec i s = .next (s.withFailure t err).freeLine := by
    rw [InFlight.FailsBy.exec hi hl, State.txFails_eq err hstep, if_neg hstays]
  refine ⟨fun c sent hk hb => ?_, fun hk => ?_⟩
  · refine ⟨_, hexec fun c' sent' hk' => ?_, ?_⟩
    · rw [hk] at hk'
      cases hk'
      exact hb
    · simp only [State.freeLine, State.withFailure, InFlight.failedChans, InFlight.failedBoard, InFlight.failEvents, hk,
        Chan.failStep_eq, hfailed]
      cases (s.chan c).note <;> rfl
  · refine ⟨_, _, hexec fun c sent hk' => absurd (hk.symm.trans hk') nofun, rfl, ?_⟩
    simp only [State.freeLine, State.withFailure, InFlight.failedChans, InFlight.failedBoard, InFlight.failEvents, hk,
      hfailed, Exchange.joinAll_nil]

/-! ### The board that goes OFFLINE -/

/-- The channels of a board are its eight places. -/
theorem boardOf_eq_iff {c : ChanId} {b : BoardId} : boardOf c = b ↔ ∃ i ∈ indices 8, chanAt b i = c := by
  simp only [mem_indices, true_and, boardOf, chanAt, Fin.ext_iff]
  refine ⟨fun h => ⟨placeOf c, ?_⟩, fun ⟨i, h⟩ => ?_⟩
  · simp only [placeOf]; omega
  · omega

/-- Channels lost one by one are SUSPECT, with all else of them held, and nothing else is touched (R83). -/
theorem State.foldl_boardLost (b : BoardId) (l : List (Fin 8)) (s : State) : ∃ chans : Vector Chan 64,
    l.foldl (fun t i => t.setChan (chanAt b i) (t.chan (chanAt b i)).boardLost) s = { s with chans := chans } ∧
      ∀ c : ChanId, chans[c] = if ∃ i ∈ l, chanAt b i = c then (s.chan c).boardLost else s.chan c := by
  induction l generalizing s with
  | nil => exact ⟨s.chans, rfl, fun c => by simp [State.chan]⟩
  | cons i l ih =>
    obtain ⟨chans, hfold, hchans⟩ := ih (s.setChan (chanAt b i) (s.chan (chanAt b i)).boardLost)
    refine ⟨chans, hfold, fun c => ?_⟩
    rw [hchans, State.setChan_chan]
    by_cases hi : chanAt b i = c
    · subst hi
      simp [Chan.boardLost]
    · simp [hi]

/-- A board that is lost: its eight channels become SUSPECT, and an OFFLINE event is handed over (R37, R83). -/
theorem State.boardOffline_eq (s : State) (b : BoardId) (err : LineError) : ∃ chans : Vector Chan 64,
    s.boardOffline b err = { s with chans := chans, ex := s.ex.join ⟨s.frame, .preamp b (.offline err)⟩ } ∧
      ∀ c : ChanId, chans[c] = if boardOf c = b then { s.chan c with op := .suspect } else s.chan c := by
  obtain ⟨chans, hfold, hchans⟩ := s.foldl_boardLost b (indices 8)
  refine ⟨chans, ?_, fun c => ?_⟩
  · rw [State.boardOffline, hfold]
    rfl
  · rw [hchans]
    simp only [← boardOf_eq_iff]
    rfl

/-- Settles O23: the failure is `State.withFailure`, its board goes OFFLINE, and then the line is free. -/
theorem thirdFailureTakesBoardOffline : Obligations.ThirdFailureTakesBoardOffline := by
  unfold Obligations.ThirdFailureTakesBoardOffline
  intro s t i err b x hl hb hon htwo hstep hi hx
  subst hb
  have hfailed : (s.board t.board).failed = x := (Board.failed_of_third htwo).trans hx.symm
  have hoffline : (t.failedBoard (s.board t.board)).offline = true := by
    rw [InFlight.failedBoard_offline, hfailed, hx]
  obtain ⟨chans, hlost, hchans⟩ := (s.withFailure t err).boardOffline_eq t.board err
  have hexec : exec i s = .next ((s.withFailure t err).boardOffline t.board err).freeLine := by
    rw [InFlight.FailsBy.exec hi hl, State.txFails_eq err hstep, if_pos ⟨hon, hoffline⟩]
  rw [hlost] at hexec
  refine ⟨_, hexec, ?_, fun c hc => ?_, fun c hc hk => ?_, fun hk => ?_, fun c sent hk => ⟨?_, ?_⟩⟩
  · cases hk : t.kind <;>
      simp only [State.freeLine, State.withFailure, InFlight.failedBoard, hk, hfailed]
  · have hnot (sent : SentState) : t.kind ≠ .step c sent := fun hk => hc (hstep c sent hk).symm
    exact (hchans c).trans (by rw [if_neg hc, State.withFailure_chan_other err hnot])
  · exact (hchans c).trans (by rw [if_pos hc, State.withFailure_chan_other err hk])
  · simp only [State.freeLine, State.withFailure, InFlight.failEvents, hk, Exchange.joinAll_nil]
  · refine (hchans c).trans ?_
    rw [if_pos (hstep c sent hk).symm, State.withFailure_chan_step err hk, Chan.failStep_eq]
  · have hcount : x.failures = 3 := by rw [hx]
    simp only [State.freeLine, State.withFailure, InFlight.failEvents, hk, Chan.failStep_eq, hfailed, hcount]
    rw [Exchange.joinAll_append, Exchange.joinAll_append]
    cases (s.chan c).note <;> rfl

end Sys2Proof.Machine
end

section
/-! PROOFS. The good answer to a STEP (R38, R76 to R78, R87, R89, R90, R92). -/

namespace Sys2Proof.Machine

/-- The last character of an answer without an error ends the transaction in success (R35, R38). -/
theorem exec_answerCharacter_good {s : State} {t : InFlight} {ch : LineChar} (hl : s.line = some t)
    (hn : t.data.length + 1 = t.kind.expected) (he : t.firstError = none)
    (hc : charError t.kind t.data.length ch = none) :
    exec (.answerCharacter ch) s = .next (s.txSucceeds (t.receive ch)).freeLine := by
  have herr : (t.receive ch).firstError = none := by rw [t.receive_of_no_error ch he, hc]
  rw [exec_answerCharacter_last ch hl hn, State.txComplete, herr]

/-! ### The parts of a good answer -/

section parts
variable (c : ChanId) {ch : Chan}

/-- The phantom fields of an answer: a fault, no change, or a ramp that starts (R90, R92). -/
theorem Chan.answerPhantom_cases (held : Bool) :
    ch.answerPhantom c held true = ({ ch with phantom := .faulted, ramp := 0, phantomTgt := false, ackPhantom := false },
      if ch.phantom = .faulted then [] else [.phantom c .faulted true ch.ack]) ∧
    (held = ch.ackPhantom → ch.answerPhantom c held false = (ch, [])) ∧
    (held ≠ ch.ackPhantom → ch.answerPhantom c held false =
      ({ ch with ackPhantom := held, phantom := if held then .rampUp else .rampDown, ramp := 14400 }, [])) := by
  refine ⟨rfl, fun h => ?_, fun h => ?_⟩
  · simp [Chan.answerPhantom, h]
  · simp [Chan.answerPhantom, h, Config.rampPeriods]

/-- The phantom fields leave a channel's step and resume state alone. -/
theorem Chan.answerPhantom_carried (held fault : Bool) : (ch.answerPhantom c held fault).1.carried = ch.carried ∧
    (ch.answerPhantom c held fault).1.resume = ch.resume := by
  unfold Chan.answerPhantom Chan.faultPhantom
  split
  · exact ⟨rfl, rfl⟩
  · split <;> exact ⟨rfl, rfl⟩

theorem Chan.answerSetting_of_eq (now : Word) : ch.answerSetting now ch.ack = ch := by
  rw [Chan.answerSetting, if_pos rfl]

theorem Chan.answerSetting_of_ne {held : Setting} (now : Word) (h : held ≠ ch.ack) : ch.answerSetting now held =
    { ch with ack := held, pend := ch.pend ++ [{ setting := held, due := now + 40#32 }] } := by
  rw [Chan.answerSetting, if_neg h]; rfl

/-- With applications pending, the channel waits for them (R76). -/
theorem Chan.afterAnswer_pending (h : ch.pend ≠ []) : ch.afterAnswer c = ({ ch with op := .settling }, []) := by
  rw [Chan.afterAnswer, if_pos h]

/-- After a carried step, or a phantom change in SETTLING, the settle check is made (R78, R89). -/
theorem Chan.afterAnswer_settles (hp : ch.pend = []) (h : ch.carried ≠ .nothing ∨ ch.resume = .settling) :
    ch.afterAnswer c = ch.settleCheck c := by
  rw [Chan.afterAnswer, if_neg (not_not.2 hp)]
  cases hc : ch.carried with
  | nothing => rw [h.resolve_left (not_not.2 hc)]
  | pad | up | down => rfl

/-- After a phantom change in ZC_WAIT, or in IDLE where the target has moved, the next wait begins (R89). -/
theorem Chan.afterAnswer_waits (hp : ch.pend = []) (hc : ch.carried = .nothing)
    (h : ch.resume = .zcWait ∨ (ch.resume = .idle ∧ ch.tgt ≠ ch.ack)) :
    ch.afterAnswer c = ({ ch with op := .zcWait, window := 480, fresh := true }, []) := by
  rcases h with h | ⟨h, ht⟩
  · simp [Chan.afterAnswer, hp, hc, h, Chan.enterZc, Config.crossingWindow]
  · simp [Chan.afterAnswer, hp, hc, h, ht, Chan.enterZc, Config.crossingWindow]

/-- After a phantom change in IDLE at the target, the channel is IDLE again (R89). -/
theorem Chan.afterAnswer_idles (hp : ch.pend = []) (hc : ch.carried = .nothing) (hr : ch.resume = .idle)
    (ht : ch.tgt = ch.ack) : ch.afterAnswer c = ({ ch with op := .idle }, []) := by
  simp [Chan.afterAnswer, hp, hc, hr, ht]

/-- A good answer moves no applied level: what it acknowledges is applied later (R77). -/
theorem Chan.stepAnswer_level (now : Word) (sent held : SentState) (fault : Bool) :
    (ch.stepAnswer c now sent held fault).1.level = ch.level := by
  have hsetting (x : Chan) : (x.answerSetting now held.setting).level = x.level := by
    unfold Chan.answerSetting; split <;> rfl
  rw [Chan.stepAnswer]
  exact (Chan.level_of_settings (Chan.afterAnswer_settings c _)).trans
    ((hsetting _).trans (Chan.level_of_settings (ch.answerPhantom_settings c _ _)))

end parts

/-- Settles O20: the answer's phantom gives x, its setting joins what is pending, and `Chan.afterAnswer` says where the channel
goes. -/
theorem goodAnswerConfirmsStep : Obligations.GoodAnswerConfirmsStep := by
  unfold Obligations.GoodAnswerConfirmsStep
  rintro s ch t c sent held d o x supply mismatch hl hk hd he hc rfl rfl hx rfl
  have hphantom : (s.chan c).answerPhantom c (pairState d ch.data).phantom (pairFault d) = (x, supply) := by
    obtain ⟨hfault, hsame, hramp⟩ := (s.chan c).answerPhantom_cases c (pairState d ch.data).phantom
    rcases hx with ⟨hf, rfl, rfl⟩ | ⟨hf, h, rfl, rfl⟩ | ⟨hf, h, rfl, rfl⟩ <;> rw [hf]
    · exact hfault
    · exact hsame h
    · exact hramp h
  have hsettings := (s.chan c).answerPhantom_settings c (pairState d ch.data).phantom (pairFault d)
  obtain ⟨hcarried, hresume⟩ := (s.chan c).answerPhantom_carried c (pairState d ch.data).phantom (pairFault d)
  rw [hphantom] at hsettings hcarried hresume
  obtain ⟨hack, -, htgt, hpend, -⟩ := Chan.settings_iff.1 hsettings
  have hexec := exec_answerCharacter_good hl (by rw [hk, hd]; rfl) he (by rw [hd]; exact hc)
  refine ⟨_, ((x.answerSetting s.frame (pairState d ch.data).setting).afterAnswer c).1,
    ((x.answerSetting s.frame (pairState d ch.data).setting).afterAnswer c).2, hexec, ?_, fun h => ?_, fun h hp => ?_,
    fun h hp => ⟨fun hs => ?_, fun hn hr => ?_, fun hn hr ht => ?_⟩⟩
  · have hlevel := (s.chan c).stepAnswer_level c s.frame sent (pairState d ch.data) (pairFault d)
    have hanswer : (s.chan c).stepAnswer c s.frame sent (pairState d ch.data) (pairFault d) =
        (((x.answerSetting s.frame (pairState d ch.data).setting).afterAnswer c).1,
          supply ++ answerMismatch c sent (pairState d ch.data) (pairFault d) ++
            ((x.answerSetting s.frame (pairState d ch.data).setting).afterAnswer c).2) := by
      rw [Chan.stepAnswer, hphantom]
    have hsucceeds : s.txSucceeds (t.receive ch) =
        (s.setBoard (boardOf c) { s.board (boardOf c) with failures := 0 }).putChan c
          ((s.chan c).stepAnswer c s.frame sent (pairState d ch.data) (pairFault d)) := by
      simp only [State.txSucceeds, InFlight.receive, hk, hd]
      rfl
    rw [hsucceeds, State.putChan_of_level (by exact hlevel), hanswer]
    rfl
  · rw [← hack] at h
    rw [Chan.answerSetting_of_ne _ h, Chan.afterAnswer_pending c (by simp), hpend]
    exact ⟨rfl, rfl⟩
  · rw [← hpend] at hp
    rw [h, ← hack, Chan.answerSetting_of_eq, Chan.afterAnswer_pending c hp]
    exact ⟨rfl, rfl⟩
  · rw [← hpend] at hp
    rw [← hcarried, ← hresume] at hs
    rw [h, ← hack, Chan.answerSetting_of_eq, Chan.afterAnswer_settles c hp hs]
    exact x.settleCheck_settles c
  · rw [← hpend] at hp
    rw [← hcarried] at hn
    rw [← hresume, ← htgt, ← hack] at hr
    rw [h, ← hack, Chan.answerSetting_of_eq, Chan.afterAnswer_waits c hp hn hr]
    exact ⟨rfl, rfl⟩
  · rw [← hpend] at hp
    rw [← hcarried] at hn
    rw [← hresume] at hr
    rw [← htgt, ← hack] at ht
    rw [h, ← hack, Chan.answerSetting_of_eq, Chan.afterAnswer_idles c hp hn hr ht]
    exact ⟨rfl, rfl⟩

end Sys2Proof.Machine
end

section
/-! PROOFS. What a good readback makes of one channel record (R84 to R87, R92). -/

namespace Sys2Proof.Machine

/-! ### The update of a channel that is SUSPECT or disagrees (R84) -/

/-- A channel record once a readback's state has been taken (R84 steps 1, 3 and 4). -/
def Chan.taken (o : Chan) (found : SentState) (fault : Bool) : Chan :=
  { o with
    ack := found.setting, ackPhantom := found.phantom, app := found.setting, pend := [], lastSent := none
    phantom := if fault = true then .faulted
      else if found.phantom = o.ackPhantom then o.phantom else if found.phantom = true then .on else .off
    ramp := if fault = true ∨ found.phantom ≠ o.ackPhantom then 0 else o.ramp
    phantomTgt := if fault = true then false else o.phantomTgt }

section update
variable {c : ChanId} {o : Chan} {read found : SentState} {fault : Bool}

/-- The MISMATCH event of a readback, with what it says of the last sent state (R84 step 2, R87). -/
theorem Chan.readMismatch_eq {was failed equal : Bool} (hw : was = decide (o.op = .suspect))
    (hf : failed = true ↔ was = true ∧ ∃ l, o.lastSent = some l ∧ l.failed = true)
    (he : equal = true ↔ failed = true ∧ ∃ l, o.lastSent = some l ∧ l.sent = found) :
    o.readMismatch c found = if found.setting = o.ack ∧ found.phantom = o.ackPhantom then []
      else [.mismatch c .readback ⟨o.ack, o.ackPhantom⟩ found was failed equal] := by
  have hsuspect : (o.op == .suspect) = was := by rw [hw]; rfl
  unfold Chan.readMismatch
  rw [hsuspect]
  cases hl : o.lastSent with
  | none =>
    have hf : failed = false := by simpa [hl] using hf
    have he : equal = false := by simpa [hl] using he
    rw [hf, he]
  | some l =>
    have hf : failed = (was && l.failed) := by rw [Bool.eq_iff_iff, hf, hl]; simp
    have he : equal = (was && l.failed && l.sent == found) := by
      rw [← hf, Bool.eq_iff_iff, he, hl]; simp
    rw [he, hf]

/-- Steps 1 to 4 of R84, a fault read as phantom off (log entry 14). -/
theorem Chan.readUpdate_eq {was failed equal : Bool} (hfound : found = { read with phantom := read.phantom && !fault })
    (hw : was = decide (o.op = .suspect))
    (hf : failed = true ↔ was = true ∧ ∃ l, o.lastSent = some l ∧ l.failed = true)
    (he : equal = true ↔ failed = true ∧ ∃ l, o.lastSent = some l ∧ l.sent = found) :
    o.readUpdate c read fault = (o.taken found fault,
      (if fault = true ∧ o.phantom ≠ .faulted then [.phantom c .faulted true o.ack] else []) ++
        if found.setting = o.ack ∧ (fault = true ∨ found.phantom = o.ackPhantom) then []
        else [.mismatch c .readback ⟨o.ack, o.ackPhantom && !fault⟩ found was failed equal]) := by
  unfold Chan.readUpdate readPhantom
  rw [← hfound]
  cases fault with
  | false =>
    have hm := o.readMismatch_eq (c := c) hw hf he
    by_cases hp : found.phantom = o.ackPhantom
    · simp [hm, hp, Chan.taken, Chan.adopt]
    · simp [hm, hp, Chan.taken, Chan.adopt, Chan.settlePhantom]
  | true =>
    have hoff : found.phantom = false := by rw [hfound]; simp
    have hm := (o.faultPhantom c).1.readMismatch_eq (c := c) hw hf he
    simp only [if_true, hm]
    by_cases hp : o.phantom = .faulted
    · simp [hoff, hp, Chan.taken, Chan.adopt, Chan.faultPhantom]
    · simp [hoff, hp, Chan.taken, Chan.adopt, Chan.faultPhantom]

/-! ### How the operation goes on (R84 step 5, R85) -/

/-- Where the operation goes once a readback has been taken: the settle check in SUSPECT, and otherwise what a disagreement
gives. -/
def Chan.afterTaken (c : ChanId) (x : Chan) : Chan × List Event :=
  if x.op = .suspect then x.settleCheck c else x.afterDisagreement c

theorem Chan.afterTaken_settles (x : Chan) (h : x.op = .suspect ∨ x.op = .settling) :
    x.SettlesTo c (x.afterTaken c).1 (x.afterTaken c).2 := by
  have hcheck : x.afterTaken c = x.settleCheck c := by
    rcases h with h | h <;> simp [Chan.afterTaken, Chan.afterDisagreement, h]
  rw [hcheck]
  exact x.settleCheck_settles c

theorem Chan.afterTaken_waiting (x : Chan) (h : x.op = .zcWait ∨ x.op = .lineWait) :
    (x.tgt = x.ack → x.SettlesTo c (x.afterTaken c).1 (x.afterTaken c).2) ∧
      (x.tgt ≠ x.ack → x.afterTaken c = (x, [])) := by
  refine ⟨fun ht => ?_, fun ht => ?_⟩
  · have hcheck : x.afterTaken c = x.settleCheck c := by
      rcases h with h | h <;> simp [Chan.afterTaken, Chan.afterDisagreement, Chan.settleCheck, h, ht]
    rw [hcheck]
    exact x.settleCheck_settles c
  · rcases h with h | h <;> simp [Chan.afterTaken, Chan.afterDisagreement, h, ht]

theorem Chan.afterTaken_idle (x : Chan) (h : x.op = .idle) :
    (x.tgt = x.ack → x.afterTaken c = (x, [])) ∧
      (x.tgt ≠ x.ack → x.afterTaken c = ({ x with
        op := .zcWait, window := 480, fresh := true, opened := true, superseded := 0, forced := 0 }, [])) := by
  refine ⟨fun ht => ?_, fun ht => ?_⟩
  · simp [Chan.afterTaken, Chan.afterDisagreement, h, ht]
  · simp [Chan.afterTaken, Chan.afterDisagreement, h, ht, Chan.opening, Chan.enterZc, Config.crossingWindow]

theorem Chan.afterTaken_ackWait (x : Chan) (h : x.op = .ackWait) : x.afterTaken c = (x, []) := by
  simp [Chan.afterTaken, Chan.afterDisagreement, h]

/-! ### The readback of one channel -/

/-- A channel that is not SUSPECT and agrees is left alone, but for a fault flag (R84, R92). -/
theorem Chan.readback_agrees (hs : o.startup = false) (hop : o.op ≠ .suspect) (hset : read.setting = o.ack)
    (hph : read.phantom = o.ackPhantom) :
    o.readback c read fault = if fault then o.faultPhantom c else (o, []) := by
  rw [Chan.readback, hs, if_neg Bool.false_ne_true, if_neg hop, if_pos ⟨hset, hph⟩]

/-- One that is SUSPECT or disagrees takes the state and goes on (R84, R85). -/
theorem Chan.readback_takes (hs : o.startup = false)
    (h : ¬ (o.op ≠ .suspect ∧ read.setting = o.ack ∧ read.phantom = o.ackPhantom))
    (hop : (o.readUpdate c read fault).1.op = o.op) : o.readback c read fault =
      (((o.readUpdate c read fault).1.afterTaken c).1,
        (o.readUpdate c read fault).2 ++ ((o.readUpdate c read fault).1.afterTaken c).2) := by
  rw [Chan.readback, hs, if_neg Bool.false_ne_true, Chan.afterTaken, hop]
  by_cases hsus : o.op = .suspect
  · simp only [if_pos hsus]
  · rw [if_neg hsus, if_neg hsus, if_neg fun hagree => h ⟨hsus, hagree⟩]

/-- A start-up readback: targets from the board where none was set, and the settle check (R86). -/
theorem Chan.readback_startUp (hs : o.startup = true) (hfound : found = { read with phantom := read.phantom && !fault }) :
    ∃ x : Chan, x = { o with
        ack := found.setting, ackPhantom := found.phantom, app := found.setting, pend := [], lastSent := none
        startup := false, ramp := 0
        tgt := if o.tgtSet = true then o.tgt else found.setting
        phantomTgt := if fault = true then false
          else if o.phantomTgtSet = true then o.phantomTgt else found.phantom
        phantom := if fault = true then .faulted else if found.phantom = true then .on else .off } ∧
      o.readback c read fault = ((x.settleCheck c).1,
        (if fault = true ∧ o.phantom ≠ .faulted then [.phantom c .faulted true found.setting] else []) ++
          (x.settleCheck c).2) := by
  refine ⟨_, rfl, ?_⟩
  rw [Chan.readback, hs, if_pos rfl, Chan.startUp, readPhantom, ← hfound]
  cases fault with
  | false => simp [Chan.adopt, Chan.settlePhantom]
  | true =>
    have hoff : found.phantom = false := by rw [hfound]; simp
    by_cases hp : o.phantom = .faulted
    · simp [Chan.adopt, Chan.faultPhantom, hoff, hp]
    · simp [Chan.adopt, Chan.faultPhantom, hoff, hp]

end update

end Sys2Proof.Machine
end

section
/-! PROOFS. The good answer to a READBACK: eight channels in order, and the board ONLINE (R34, R38, R84 to R87). -/

namespace Sys2Proof.Machine

/-- A record put in place: each crosspoint of the channel meets its applied level (R9, R77). -/
theorem State.putChan_atLevel (s : State) (c : ChanId) (r : Chan × List Event) (f : Feed) :
    (s.xp c f).AtLevel (s.chan c).level r.1.level ((s.putChan c r).xp c f) := by
  rw [State.putChan_xp]
  by_cases h : r.1.level = (s.chan c).level
  · rw [if_neg fun hne => hne.2 h]
    exact ⟨fun _ => rfl, fun hne => absurd h.symm hne⟩
  · rw [if_pos ⟨rfl, h⟩]
    exact (s.xp c f).relevel_atLevel fun he => h he.symm

/-- The crosspoints of other channels are left alone. -/
theorem State.putChan_xps_other (s : State) {c d : ChanId} (r : Chan × List Event) (h : c ≠ d) :
    (s.putChan c r).xps[d] = s.xps[d] := by
  simp only [State.putChan, Fin.getElem_fin]
  split
  · rfl
  · exact upd_other _ _ h

theorem State.xp_of_xps {s t : State} {c : ChanId} (h : t.xps[c] = s.xps[c]) (f : Feed) : t.xp c f = s.xp c f := by
  rw [State.xp, State.xp, h]

theorem chanAt_injective (b : BoardId) : Function.Injective (chanAt b) := fun i j h => by
  simp only [chanAt, Fin.ext_iff] at h
  exact Fin.ext (by omega)

/-- Places of a board dealt with one after another, each by its own channel record alone: the events in order, every record
and its crosspoints by the record before, and all else left alone. -/
theorem State.foldl_putChan (b : BoardId) (g : Fin 8 → Chan → Chan × List Event) (l : List (Fin 8)) (hl : l.Nodup)
    (s t : State) (ht : t = l.foldl (fun u i => u.putChan (chanAt b i) (g i (u.chan (chanAt b i)))) s) :
    t = { s with
      chans := t.chans, xps := t.xps
      ex := s.ex.joinAll s.frame (l.flatMap fun i => (g i (s.chan (chanAt b i))).2) } ∧
    (∀ c, (∀ i ∈ l, chanAt b i ≠ c) → t.chan c = s.chan c ∧ t.xps[c] = s.xps[c]) ∧
    ∀ i ∈ l, t.chan (chanAt b i) = (g i (s.chan (chanAt b i))).1 ∧
      ∀ f, (s.xp (chanAt b i) f).AtLevel (s.chan (chanAt b i)).level (t.chan (chanAt b i)).level
        (t.xp (chanAt b i) f) := by
  induction l generalizing s with
  | nil => subst ht; exact ⟨rfl, fun c _ => ⟨rfl, rfl⟩, fun i hi => nomatch hi⟩
  | cons i l ih =>
    have hi : ∀ j ∈ l, chanAt b i ≠ chanAt b j := fun j hj he =>
      (List.nodup_cons.1 hl).1 (chanAt_injective b he ▸ hj)
    have hother (c : ChanId) (hc : chanAt b i ≠ c) (r : Chan × List Event) :
        (s.putChan (chanAt b i) r).chan c = s.chan c ∧ (s.putChan (chanAt b i) r).xps[c] = s.xps[c] :=
      ⟨by rw [State.putChan_chan, if_neg hc], s.putChan_xps_other r hc⟩
    obtain ⟨hframe, hrest, hdone⟩ := ih hl.of_cons (s.putChan (chanAt b i) (g i (s.chan (chanAt b i)))) ht
    generalize hr : g i (s.chan (chanAt b i)) = r at hframe hrest hdone
    refine ⟨?_, fun c hc => ?_, fun j hj => ?_⟩
    · have hevents : (l.flatMap fun j => (g j ((s.putChan (chanAt b i) r).chan (chanAt b j))).2) =
          l.flatMap fun j => (g j (s.chan (chanAt b j))).2 :=
        List.flatMap_congr fun j hj => by rw [(hother _ (hi j hj) r).1]
      rw [hevents, State.putChan_ex, State.putChan_frame, ← Exchange.joinAll_append] at hframe
      rw [List.flatMap_cons, hr]
      exact hframe
    · obtain ⟨hchan, hxps⟩ := hrest c fun j hj => hc j (List.mem_cons_of_mem _ hj)
      obtain ⟨hchan', hxps'⟩ := hother c (hc i List.mem_cons_self) r
      exact ⟨hchan.trans hchan', hxps.trans hxps'⟩
    · rcases List.mem_cons.1 hj with rfl | hj
      · obtain ⟨hchan, hxps⟩ := hrest (chanAt b j) fun k hk he => hi k hk he.symm
        have hput : (s.putChan (chanAt b j) r).chan (chanAt b j) = r.1 := by rw [State.putChan_chan, if_pos rfl]
        have hlevel := s.putChan_atLevel (chanAt b j) r
        rw [hchan, hput, hr]
        exact ⟨rfl, fun f => State.xp_of_xps hxps f ▸ hlevel f⟩
      · obtain ⟨hchan, hxps⟩ := hother _ (hi j hj) r
        obtain ⟨hrecord, hlevel⟩ := hdone j hj
        rw [hchan] at hrecord hlevel
        exact ⟨hrecord, fun f => State.xp_of_xps hxps f ▸ hlevel f⟩

/-- What a good readback makes of the channel at a place of its board. -/
def readPlace (b : BoardId) (data : List Byte) (i : Fin 8) (ch : Chan) : Chan × List Event :=
  ch.readback (chanAt b i) (pairState (data.getD (2 * i.val) 0#8) (data.getD (2 * i.val + 1) 0#8))
    (pairFault (data.getD (2 * i.val) 0#8))

/-- A good readback: the board ONLINE with no failures, its channels' states in channel order, and the event of a board that
was OFFLINE last (R38, R84). -/
theorem State.readbackSucceeds_eq (s : State) (b : BoardId) (data : List Byte) :
    s.readbackSucceeds b data = { s with
      chans := (s.readbackSucceeds b data).chans, xps := (s.readbackSucceeds b data).xps
      boards := upd s.boards b { s.board b with failures := 0, offline := false }
      ex := s.ex.joinAll s.frame (((List.finRange 8).flatMap fun i => (readPlace b data i (s.chan (chanAt b i))).2) ++
        if (s.board b).offline = true then [.preamp b .online] else []) } ∧
    (∀ c : ChanId, boardOf c ≠ b →
      (s.readbackSucceeds b data).chan c = s.chan c ∧ (s.readbackSucceeds b data).xps[c] = s.xps[c]) ∧
    ∀ i : Fin 8, (s.readbackSucceeds b data).chan (chanAt b i) = (readPlace b data i (s.chan (chanAt b i))).1 ∧
      ∀ f, (s.xp (chanAt b i) f).AtLevel (s.chan (chanAt b i)).level
        ((s.readbackSucceeds b data).chan (chanAt b i)).level ((s.readbackSucceeds b data).xp (chanAt b i) f) := by
  generalize hu : (s.setBoard b { s.board b with failures := 0, offline := false }).readbackChans b data = u
  obtain ⟨hframe, hrest, hdone⟩ := State.foldl_putChan b (readPlace b data) (indices 8) (List.nodup_finRange 8) _ u hu.symm
  have hsucceeds : s.readbackSucceeds b data =
      u.setEx (u.ex.joinAll u.frame (if (s.board b).offline = true then [.preamp b .online] else [])) := by
    rw [State.readbackSucceeds, hu]
    cases (s.board b).offline <;> rfl
  rw [hsucceeds]
  refine ⟨?_, fun c hc => hrest c fun i _ he => hc (boardOf_eq_iff.2 ⟨i, mem_indices i, he⟩), fun i => hdone i (mem_indices i)⟩
  rw [hframe, Exchange.joinAll_append]
  rfl

/-- Settles O21: `State.foldl_putChan` gives the eight channels one by one, and `Chan.readback` says what becomes of each. -/
theorem readbackSettlesChannel : Obligations.ReadbackSettlesChannel := by
  unfold Obligations.ReadbackSettlesChannel
  rintro s ch t b data hl hk rfl he hn hc rfl
  have hexec := exec_answerCharacter_good hl (by rw [hk, hn]; rfl) he (by rw [hk, hn]; exact hc)
  have hsucceeds : s.txSucceeds (t.receive ch) = s.readbackSucceeds t.board (t.data ++ [ch.data]) := by
    simp only [State.txSucceeds, InFlight.receive, hk]
  obtain ⟨hframe, hrest, hdone⟩ := s.readbackSucceeds_eq t.board (t.data ++ [ch.data])
  generalize t.data ++ [ch.data] = data at hsucceeds hframe hrest hdone ⊢
  rw [hsucceeds] at hexec
  refine ⟨_, fun i => (readPlace t.board data i (s.chan (chanAt t.board i))).2, hexec, ?_, fun c hc => ?_, ?_⟩
  · generalize s.readbackSucceeds t.board data = v at hframe ⊢
    rw [State.freeLine, hframe]
  · exact hrest c fun hb => hc (congrArg Fin.val hb)
  rintro i c read fault o found hci hread hfault rfl hfound
  obtain rfl : c = chanAt t.board i := Fin.ext hci
  obtain ⟨hchan, hlevel⟩ := hdone i
  have hplace : readPlace t.board data i (s.chan (chanAt t.board i)) =
      (s.chan (chanAt t.board i)).readback (chanAt t.board i) read fault := by rw [hread, hfault]; rfl
  simp only [hplace] at hchan ⊢
  generalize s.readbackSucceeds t.board data = v at hchan hlevel ⊢
  change v.freeLine.chan (chanAt t.board i) = _ at hchan
  change ∀ f, (s.xp _ f).AtLevel _ (v.freeLine.chan _).level (v.freeLine.xp _ f) at hlevel
  generalize v.freeLine = w at hchan hlevel ⊢
  generalize chanAt t.board i = c at hchan hlevel ⊢
  refine ⟨hlevel, fun hs hop hset hph => ?_, fun hs hdiffers was failed equal x es hw hfailed hequal hx hes => ?_,
    fun hs => ?_⟩
  · rw [hchan, Chan.readback_agrees hs hop hset hph]
    exact ⟨fun hf => by rw [hf]; exact ⟨rfl, rfl⟩, fun hf => by rw [hf]; exact ⟨rfl, rfl⟩⟩
  · have hupdate := Chan.readUpdate_eq (c := c) hfound hw hfailed hequal
    have hreadback := Chan.readback_takes (c := c) (fault := fault) hs hdiffers (by rw [hupdate]; rfl)
    rw [hupdate, ← hes, show (s.chan c).taken found fault = x from hx.symm] at hreadback
    have hop : x.op = (s.chan c).op := by rw [hx]
    have hat : x.tgt = x.ack ↔ (s.chan c).tgt = found.setting := by rw [hx]
    rw [hreadback] at hchan ⊢
    rw [hchan]
    refine ⟨(x.afterTaken c).2, rfl, fun h => x.afterTaken_settles (hop ▸ h), fun h => ?_, fun h => ?_, fun h => ?_⟩
    · obtain ⟨hend, hgo⟩ := x.afterTaken_waiting (c := c) (hop ▸ h)
      exact ⟨fun ht => hend (hat.2 ht), fun ht => by rw [hgo (mt hat.1 ht)]; exact ⟨rfl, rfl⟩⟩
    · obtain ⟨hstay, hstart⟩ := x.afterTaken_idle (c := c) (hop ▸ h)
      refine ⟨?_, fun ht => by rw [hstay (hat.2 ht)], fun ht => by rw [hstart (mt hat.1 ht)]⟩
      by_cases ht : (s.chan c).tgt = found.setting
      · rw [hstay (hat.2 ht)]
      · rw [hstart (mt hat.1 ht)]
    · rw [x.afterTaken_ackWait (hop ▸ h)]
      exact ⟨rfl, rfl⟩
  · obtain ⟨x, hx, hreadback⟩ := Chan.readback_startUp (c := c) hs hfound
    rw [hreadback] at hchan ⊢
    rw [hchan]
    exact ⟨x, (x.settleCheck c).2, x.settleCheck_settles c, hx, rfl⟩

end Sys2Proof.Machine
end

section
/-! PROOFS. The countdowns that a boundary lowers, and what follows where one has run out (R40, R153, R156, R160, R178). -/

namespace Sys2Proof.Machine

/-! ### One block's work by command -/

/-- A block that owes its boundary work does it once (R153). -/
theorem exec_blockBoundary_owed {s : State} {u : BoundaryUnit} (ph : PhaseInput) (h : s.owed.contains u = true) :
    exec (.blockBoundary [u] ph) s =
      .next (({ s with owed := s.owed.filter fun v => v != u } : State).unitWork u ph) := by
  change Host.Outcome.next (State.unitBoundary ph s u) = _
  rw [State.unitBoundary, if_pos h]

/-- A block whose work is done does nothing (R153). -/
theorem exec_blockBoundary_done {s : State} {u : BoundaryUnit} (ph : PhaseInput) (h : s.owed.contains u = false) :
    exec (.blockBoundary [u] ph) s = .next s := by
  change Host.Outcome.next (State.unitBoundary ph s u) = _
  rw [State.unitBoundary, h, if_neg Bool.false_ne_true]

/-- Settles O28: each block's work is one record update, made where the block owes it. -/
theorem boundaryLowersCountdowns : Obligations.BoundaryLowersCountdowns := by
  unfold Obligations.BoundaryLowersCountdowns
  refine fun s ph => ⟨fun h => exec_blockBoundary_owed ph h, fun h => ?_, fun u => exec_blockBoundary_done ph⟩
  rw [exec_blockBoundary_owed ph h]
  simp only [State.unitWork, State.setEx, Exchange.boundary, Bool.and_eq_true, decide_eq_true_eq]

/-! ### Countdowns that have run out -/

/-- A deferral that has run out turns ASKING (R40). -/
theorem exec_readbackRetry {s : State} {b : BoardId} (hr : (s.board b).request = .deferred)
    (hc : (s.board b).countdown = 0) :
    exec (.readbackRetry b) s = .next (s.setBoard b { s.board b with request := .asking, countdown := 0 }) := by
  change Host.Outcome.next (s.retryReadback b) = _
  rw [State.retryReadback, if_pos (by simp [Board.retryDue, hr, hc])]
  rfl

/-- An acquisition of 500 blocks gives up into a REST holdover (R156). -/
theorem exec_acquisitionTimeout {s : State} (hl : s.clock.lock = .acquiring) (ha : 500 ≤ s.clock.acq) :
    exec .acquisitionTimeout s = .next (s.putClock
      { counted := s.clock
        after := { s.clock with lock := .holdover, form := .rest, retry := 1000, inRun := 0, acq := 0 }
        cause := some .timeout, lost := false } none) := by
  change Host.Outcome.next s.acquisitionGivesUp = _
  rw [State.acquisitionGivesUp, if_pos (by simp [Clock.timeoutDue, hl, ha])]

/-- A REST holdover whose countdown has run out tries its reference again (R160). -/
theorem exec_clockRetry {s : State} (hl : s.clock.lock = .holdover) (hf : s.clock.form = .rest)
    (hr : s.clock.retry = 0) :
    exec .clockRetry s = .next (s.putClock (s.clock.beginAcquiring s.clock.ref .retry) none) := by
  change Host.Outcome.next s.clockRetries = _
  rw [State.clockRetries, if_pos (by simp [Clock.retryDue, hl, hf, hr])]

/-- A change that loses no lock hands over its event and touches nothing else of the exchange (R162). -/
theorem State.putClock_ex_of_cause {s : State} {m : ClockMove} {k : ClockCause} (tag : Option Half) (hk : m.cause = some k)
    (hl : m.lost = false) :
    (s.putClock m tag).ex = s.ex.join ⟨s.frame, clockEvent m.counted m.after k m.after.c1 m.after.c2 tag⟩ := by
  unfold State.putClock
  rw [hk, hl, Bool.or_false]
  rfl

/-- Settles O33: each expiry is one step, and the clock's two are changes put in force by `State.putClock`. -/
theorem timersExpire : Obligations.TimersExpire := by
  unfold Obligations.TimersExpire
  refine fun s => ⟨fun b => exec_readbackRetry, fun hl ha => ?_, fun hl hf hr => ?_⟩
  · refine ⟨_, exec_acquisitionTimeout hl ha, s.putClock_frame _ _, ?_⟩
    rw [State.putClock_ex_of_cause none rfl rfl, clockEvent, hl]
  · refine ⟨_, exec_clockRetry hl hf hr, ?_, ?_⟩
    · rw [State.putClock_clock]
      exact s.putClock_frame _ _
    · rw [State.putClock_clock, State.putClock_ex_of_cause none rfl rfl]
      refine ⟨rfl, rfl, rfl, rfl, rfl, rfl, rfl, ?_⟩
      simp only [clockEvent, Clock.beginAcquiring, Clock.move, hl, hf]

end Sys2Proof.Machine
end

section
/-! PROOFS. SET_PHANTOM, READ_CHANNEL and RESYNC, and the layouts of their replies (R48, R95, R96, R180). -/

namespace Sys2Proof.Machine

/-! ### The takes -/

/-- The common checks pass where the channel and the source are in their sets (R174). -/
theorem State.withChan_of_decoded (s : State) {h : ReqHead} {c : ChanId} {src : Source} (kind : Byte)
    (k : ChanId → Source → State) (hc : decodeChannel h.channel = some c) (hs : decodeSource h.source = some src) :
    s.withChan (takeHead h kind) k = k c src := by
  rw [State.withChan, show decodeChannel (takeHead h kind).channel = some c from hc,
    show decodeSource (takeHead h kind).source = some src from hs]

/-- The owner and the panel have authority over phantom (R54). -/
theorem phantomAuthorised_of {src : Source} {owner : Option Feed}
    (h : src = .panel ∨ ∃ f, src = .feed f ∧ owner = some f) : phantomAuthorised src owner = true := by
  rcases h with rfl | ⟨f, rfl, rfl⟩
  · rfl
  · exact beq_self_eq_true _

theorem upd_upd {α : Type} {n : Nat} (v : Vector α n) (i : Fin n) (x y : α) : upd (upd v i x) i y = upd v i y :=
  Vector.set_set ..

section takes
variable {s : State} {h : ReqHead} {c : ChanId} {src : Source}

/-- SET_PHANTOM with authority, but for phantom on while the supply has failed (R95). -/
theorem served_setPhantom (hr : s.Ready h) (hc : decodeChannel h.channel = some c) (hs : decodeSource h.source = some src)
    {v : Byte} (hauth : src = .panel ∨ ∃ f, src = .feed f ∧ (s.chan c).owner = some f) (hv : v.toNat ≤ 1)
    (hf : ¬ (v = 1#8 ∧ (s.chan c).phantom = .faulted)) :
    Served (.setPhantom h v) s (s.setChan c ((s.chan c).setPhantom (v == 1#8))) h 3#8 .ok
      (some ((s.setChan c ((s.chan c).setPhantom (v == 1#8))).preampReply c)) := by
  refine served_of_finish hr (serve := fun s t => s.serveSetPhantom t v) (args := [v]) rfl (by simp)
    (by rintro bs ⟨⟩; exact Nat.le_of_ble_eq_true rfl) hr.takeReady ?_
  have hauth : ¬ phantomAuthorised src (s.chan c).owner = false := by rw [phantomAuthorised_of hauth]; decide
  refine (State.withChan_of_decoded _ 3#8 _ hc hs).trans ?_
  refine (if_neg (Nat.not_lt.2 hv)).trans ((if_neg hauth).trans ((if_neg fun hn => hf hn.symm).trans ?_))
  rfl

/-- READ_CHANNEL from any source (R96). -/
theorem served_readChannel (hr : s.Ready h) (hc : decodeChannel h.channel = some c) (hs : decodeSource h.source = some src) :
    Served (.readChannel h) s s h 4#8 .ok (some (s.channelReply c)) :=
  served_of_finish hr (serve := fun s t => s.serveReadChannel t) (args := []) rfl (by simp)
    (by rintro bs ⟨⟩; exact Nat.le_of_ble_eq_true rfl) hr.takeReady (State.withChan_of_decoded _ 4#8 _ hc hs)

/-- The record of a board once a deferral that a boundary has run out is ASKING (R40). -/
theorem State.retryReadback_board (s : State) (b : BoardId) : (s.retryReadback b).board b =
    if (s.board b).request = .deferred ∧ (s.board b).countdown = 0 then { s.board b with request := .asking }
    else s.board b := by
  unfold State.retryReadback
  by_cases hdue : (s.board b).request = .deferred ∧ (s.board b).countdown = 0
  · rw [if_pos (by simp [Board.retryDue, hdue]), if_pos hdue, State.setBoard_board, if_pos rfl, Board.ask, ← hdue.2]
  · rw [if_neg (by simpa [Board.retryDue] using hdue), if_neg hdue]

/-- A board's record put in place over a retry. -/
theorem State.retryReadback_setBoard (s : State) (b : BoardId) (x : Board) :
    (s.retryReadback b).setBoard b x = s.setBoard b x := by
  unfold State.retryReadback
  split
  · simp only [State.setBoard, upd_upd]
  · rfl

/-- RESYNC from any source: the board's request is ASKING, and the reply shows its record before (R48). -/
theorem served_resync (hr : s.Ready h) (hc : decodeChannel h.channel = some c) (hs : decodeSource h.source = some src)
    {x : Board} (hx : x = (s.retryReadback (boardOf c)).board (boardOf c)) :
    Served (.resync h) s (s.setBoard (boardOf c) x.ask) h 5#8 .ok (some (resyncReply (boardOf c) x)) := by
  refine served_of_finish hr (serve := fun s t => s.serveResync t) (args := []) rfl (by simp)
    (by rintro bs ⟨⟩; exact Nat.le_of_ble_eq_true rfl) hr.takeReady ?_
  refine (State.withChan_of_decoded _ 5#8 _ hc hs).trans ?_
  have hboard : ((s.setEx (s.ex.offer h 5#8 [])).retryReadback (boardOf c)).board (boardOf c) = x := by
    rw [hx, State.retryReadback_board, State.retryReadback_board]
    rfl
  simp only [hboard, State.retryReadback_setBoard]
  rfl

end takes

/-! ### The layouts -/

/-- The preamp reply (R180). -/
theorem State.preampReply_eq (s : State) (c : ChanId) {o : Chan} (ho : o = s.chan c) :
    s.preampReply c = [ownerByte o.owner] ++ little 1 o.ack.analog ++
      [flags [o.ack.padIn, o.ackPhantom, o.tgt.padIn, o.phantomTgt, o.startup]] ++ little 1 o.tgt.analog ++
      little 2 (o.app.analog + if o.app.padIn = true then -80 else 0) ++ [opByte o.op] ++
      little 1 (phantomCode o.phantom) := by
  have hflags := flags_append_false [o.ack.padIn, o.ackPhantom, o.tgt.padIn, o.phantomTgt, o.startup] 3
  rw [State.preampReply, ← ho, ← codeByte_little, ← codeByte_little, ← u8_little, bitsByte_flags, s16_little, ← hflags]
  rfl

/-- The byte of one feed's crosspoint in the reply of READ_CHANNEL: the mode, whether a reference is present, and the limited
flag (R180). -/
theorem xpByte_eq (limited : Bool) : xpByte .follow limited = flags [false, false, false, limited] ∧
    (∀ r, xpByte (.track r) limited = flags [true, false, true, limited]) ∧
    xpByte .owner limited = flags [false, true, false, limited] := by
  refine ⟨by cases limited <;> rfl, fun r => ?_, by cases limited <;> rfl⟩
  simp only [xpByte, hasRef, modeByte]
  cases limited <;> rfl

/-- The reply of READ_CHANNEL (R96, R180). -/
theorem State.channelReply_eq (s : State) (c : ChanId) {o : Chan} {v : SampleView} (ho : o = s.chan c) (hv : v = s.views[c]) :
    s.channelReply c = little 1 o.ack.analog ++
      [flags [o.ack.padIn, o.ackPhantom, v.app.padIn, o.tgt.padIn, o.phantomTgt, o.opened, o.urgent, o.startup]] ++
      little 1 v.app.analog ++ little 1 o.tgt.analog ++
      little 2 (v.app.analog + if v.app.padIn = true then -80 else 0) ++ [opByte o.op] ++
      little 1 (phantomCode o.phantom) ++ little 1 o.pend.length ++ [ownerByte o.owner] ++
      (allFeeds.map fun f => xpByte (v.modes.get f) (s.xp c f).limited) ++
      [0#8, 0#8] ++ (allFeeds.flatMap fun f => little 2 (v.trims.get f)) ++
      allFeeds.flatMap fun f => little 2 (refOf (v.modes.get f)) := by
  rw [State.channelReply, ← ho, ← hv, bitsByte_flags]
  simp only [← codeByte_little, u8_codeByte, s16_little, List.append_assoc]
  rfl

/-! ### What the last sample used (R96) -/

/-- What READ_CHANNEL reports of the samples is what the sample of the ended period used, where nothing was due before it. -/
theorem exec_samplePeriod_view {s t : State} (hcalm : s.calmBefore = true) (ht : exec .samplePeriod s = .next t)
    (c : ChanId) : t.views[c] = s.viewOf c := by
  obtain rfl : s.catchUp.takeSample.boundaryRest.endPeriod = t := by injection ht
  have hplayed := s.catchUp.takeSample.boundaryRest_played
  simp only [State.played, Prod.mk.injEq] at hplayed
  obtain ⟨-, -, hviews, -⟩ := hplayed
  have hend (u : State) : u.endPeriod.views = u.views := by simp only [State.endPeriod]
  have hsampled (u : State) : u.sampled.views[c] = u.viewOf c := by
    simp only [State.sampled, State.sendFrames, State.watchAll, State.computeSample, State.raiseAll_views, Fin.getElem_fin,
      tab_get]
  rw [hend, hviews, s.catchUp_of_calm hcalm, State.takeSample_eq, hsampled]
  rfl

/-- Settles O50: the three takes, the layouts byte for byte, and the view of the last sample. -/
theorem phantomReadAndResync : Obligations.PhantomReadAndResync := by
  unfold Obligations.PhantomReadAndResync
  refine ⟨fun s h c src hr hc hs => ⟨fun v hauth hv hf u hu => ?_, served_readChannel hr hc hs, fun x hx => ?_⟩,
    fun s c o v ho hv => ⟨s.preampReply_eq c ho, ?_⟩, rfl, fun s t c hcalm ht => ?_⟩
  · subst hu
    exact served_setPhantom hr hc hs hauth hv hf
  · have hreply : resyncReply (boardOf c) x = [u8 (boardOf c).val, flagByte x.offline, u8 x.failures,
        if x.request = .deferred then 2#8 else if x.request = .asking then 1#8 else 0#8] ++
          u16 (if x.request = .deferred then x.countdown else 0) := by
      unfold resyncReply
      cases x.request <;> rfl
    rw [← hreply]
    exact served_resync hr hc hs (hx.trans (s.retryReadback_board (boardOf c)).symm)
  · refine (s.channelReply_eq c ho hv).trans (congrArg₂ (· ++ ·) (congrArg₂ (· ++ ·) (congrArg₂ (· ++ ·)
      (congrArg₂ (· ++ ·) rfl (List.map_congr_left fun f _ => ?_)) rfl) rfl) (List.flatMap_congr fun f _ => ?_))
    · obtain ⟨hfollow, htrack, howner⟩ := xpByte_eq (s.xp c f).limited
      cases v.modes.get f with
      | follow => exact hfollow
      | track r => exact htrack r
      | owner => exact howner
    · cases v.modes.get f <;> rfl
  · rw [exec_samplePeriod_view hcalm ht]
    exact ⟨rfl, fun f => ⟨PerFeed.of_get _ f, PerFeed.of_get _ f⟩⟩

end Sys2Proof.Machine
end

section
/-! PROOFS. Changes of owner in closed form: what one gives, and what a feed's enable and disable give (R56, R60 to R62, R65,
R67, R137, R138). -/

namespace Sys2Proof.Machine

/-! ### One channel -/

/-- A cancellation does not look at the owner (R81). -/
theorem Chan.cancel_withOwner (c : ChanId) (ch : Chan) (k : OwnCause) (o : Option Feed) :
    ({ ch with owner := o } : Chan).cancel c k = ({ (ch.cancel c k).1 with owner := o }, (ch.cancel c k).2) := by
  obtain ⟨ack, ackPhantom, app, tgt, phantomTgt, owner, op, opened, tag, superseded, forced, urgent, note, window, lastNeg,
    carried, resume, lastSent, pend, startup, tgtSet, phantomTgtSet, phantom, ramp, fresh⟩ := ch
  cases opened with
  | false => rfl
  | true =>
    cases op with
    | ackWait => cases carried <;> cases resume <;> rfl
    | idle | zcWait | lineWait | settling | suspect => rfl

/-- A cancellation moves no applied level. -/
theorem Chan.cancel_level (c : ChanId) (ch : Chan) (k : OwnCause) : (ch.cancel c k).1.level = ch.level := by
  obtain ⟨x, hs, -⟩ := ch.cancel_settings c k
  exact Chan.level_of_settings (b := { ch with tgt := x }) hs

/-- A change of owner: the owner and the cancellation in the record, and OWNERSHIP before what the cancellation hands over
(R56, R81). -/
theorem State.changeOwner_eq (s : State) (c : ChanId) (new : Option Feed) (k : OwnCause) (tag : Half) :
    s.changeOwner c new k tag = { s with
      chans := upd s.chans c { ((s.chan c).cancel c k).1 with owner := new }
      ex := s.ex.joinAll s.frame (.ownership c (s.chan c).owner new k (some tag) :: ((s.chan c).cancel c k).2) } := by
  have hchan : ((s.setChan c { s.chan c with owner := new }).raise
      (.ownership c (s.chan c).owner new k (some tag))).chan c = { s.chan c with owner := new } := by
    rw [State.chan, State.raise_chans]
    exact upd_same _ _ _
  rw [State.changeOwner, hchan, Chan.cancel_withOwner, State.putChan_of_level]
  · simp only [State.raise, State.setChan, State.setEx, upd_upd, Exchange.joinAll_cons]
  · rw [hchan]
    exact (s.chan c).cancel_level c k

/-- The record of a channel whose owner gives it up (R62, R65, R81). -/
def Chan.givenUp (c : ChanId) (k : OwnCause) (ch : Chan) : Chan := { (ch.cancel c k).1 with owner := none }

/-- A channel given up: its record, the former owner's crosspoint, and the events. -/
theorem State.giveUp_eq (s : State) (c : ChanId) (f : Feed) (k : OwnCause) (tag : Half) :
    s.giveUp c f k tag = { s with
      chans := upd s.chans c ((s.chan c).givenUp c k)
      xps := upd s.xps c (s.xps[c].set f ((s.xp c f).enterTrack (s.chan c).level))
      ex := s.ex.joinAll s.frame (.ownership c (s.chan c).owner none k (some tag) :: ((s.chan c).cancel c k).2) } := by
  rw [State.giveUp, State.changeOwner_eq]
  rfl

/-- The record of a channel among others of which one is given up. -/
theorem State.giveUp_chan (s : State) (c d : ChanId) (f : Feed) (k : OwnCause) (tag : Half) :
    (s.giveUp c f k tag).chan d = if c = d then (s.chan c).givenUp c k else s.chan d := by
  rw [State.giveUp_eq]
  exact upd_get _ _ _ _

theorem State.giveUp_xps (s : State) (c d : ChanId) (f : Feed) (k : OwnCause) (tag : Half) :
    (s.giveUp c f k tag).xps[d] =
      if c = d then s.xps[c].set f ((s.xp c f).enterTrack (s.chan c).level) else s.xps[d] := by
  rw [State.giveUp_eq]
  exact upd_get _ _ _ _

/-! ### Several channels -/

/-- The events of a channel given up (R56, R81). -/
def State.giveUpEvents (s : State) (k : OwnCause) (tag : Half) (c : ChanId) : List Event :=
  .ownership c (s.chan c).owner none k (some tag) :: ((s.chan c).cancel c k).2

/-- The state with some channels given up by one feed. -/
def State.withGivenUp (s : State) (f : Feed) (k : OwnCause) (tag : Half) (l : List ChanId) : State :=
  { s with
    chans := tab fun c => if c ∈ l then (s.chan c).givenUp c k else s.chan c
    xps := tab fun c => if c ∈ l then s.xps[c].set f ((s.xp c f).enterTrack (s.chan c).level) else s.xps[c]
    ex := s.ex.joinAll s.frame (l.flatMap (s.giveUpEvents k tag)) }

section givenUp
variable (s : State) (f : Feed) (k : OwnCause) (tag : Half) (l : List ChanId)

theorem State.withGivenUp_chan (c : ChanId) :
    (s.withGivenUp f k tag l).chan c = if c ∈ l then (s.chan c).givenUp c k else s.chan c := tab_get _ c

theorem State.withGivenUp_xps (c : ChanId) : (s.withGivenUp f k tag l).xps[c] =
    if c ∈ l then s.xps[c].set f ((s.xp c f).enterTrack (s.chan c).level) else s.xps[c] := tab_get _ c

/-- A crosspoint of a channel that is given up enters TRACK where it is the former owner's. -/
theorem State.withGivenUp_xp (c : ChanId) (g : Feed) : (s.withGivenUp f k tag l).xp c g =
    if c ∈ l ∧ f = g then (s.xp c f).enterTrack (s.chan c).level else s.xp c g := by
  rw [State.xp, State.withGivenUp_xps]
  by_cases hc : c ∈ l
  · simp only [hc, if_true, true_and, PerFeed.set_get]
    rfl
  · simp only [hc, if_false, false_and]
    rfl

variable {s f k tag l}

/-- A state that differs from another in what giving channels up changes is that state with the channels given up. -/
theorem State.eq_withGivenUp {t : State} (ht : t = { s with chans := t.chans, xps := t.xps, ex := t.ex })
    (hc : ∀ c : ChanId, t.chan c = (s.withGivenUp f k tag l).chan c)
    (hx : ∀ c : ChanId, t.xps[c] = (s.withGivenUp f k tag l).xps[c])
    (he : t.ex = (s.withGivenUp f k tag l).ex) : t = s.withGivenUp f k tag l := by
  have hchans : t.chans = (s.withGivenUp f k tag l).chans := Vector.ext fun i hi => hc ⟨i, hi⟩
  have hxps : t.xps = (s.withGivenUp f k tag l).xps := Vector.ext fun i hi => hx ⟨i, hi⟩
  rw [ht, hchans, hxps, he]
  rfl

end givenUp

/-- Channels given up one after another: each by its own record and crosspoints alone, and the events in that order. -/
theorem State.foldl_giveUp (f : Feed) (k : OwnCause) (tag : Half) (l : List ChanId) (hl : l.Nodup) (s : State) :
    l.foldl (fun t c => t.giveUp c f k tag) s = s.withGivenUp f k tag l := by
  induction l generalizing s with
  | nil =>
    refine State.eq_withGivenUp rfl (fun c => ?_) (fun c => ?_) (by
      simp only [State.withGivenUp, List.flatMap_nil, Exchange.joinAll_nil, List.foldl_nil])
    · rw [State.withGivenUp_chan, if_neg List.not_mem_nil]; rfl
    · rw [State.withGivenUp_xps, if_neg List.not_mem_nil]; rfl
  | cons d l ih =>
    obtain ⟨hd, hl⟩ := List.nodup_cons.1 hl
    rw [List.foldl_cons, ih hl]
    refine State.eq_withGivenUp ?_ (fun c => ?_) (fun c => ?_) ?_
    · rw [State.giveUp_eq]; rfl
    · by_cases e : d = c
      · subst e
        simp [State.withGivenUp_chan, State.giveUp_chan, hd]
      · simp [State.withGivenUp_chan, State.giveUp_chan, e, Ne.symm e]
    · by_cases e : d = c
      · subst e
        simp only [State.withGivenUp_xps, State.giveUp_xps, hd, if_false, if_true, List.mem_cons_self]
      · have hxp : (s.giveUp d f k tag).xp c f = s.xp c f := by rw [State.xp, State.giveUp_xps, if_neg e]; rfl
        simp only [State.withGivenUp_xps, State.giveUp_xps, State.giveUp_chan, hxp, e, if_false, List.mem_cons, Ne.symm e,
          false_or]
    · have hevents : l.flatMap ((s.giveUp d f k tag).giveUpEvents k tag) = l.flatMap (s.giveUpEvents k tag) :=
        List.flatMap_congr fun c hc => by
          rw [State.giveUpEvents, State.giveUp_chan, if_neg (ne_of_mem_of_not_mem hc hd).symm]; rfl
      simp only [State.withGivenUp, hevents, List.flatMap_cons]
      rw [State.giveUp_eq, Exchange.joinAll_append]
      rfl

/-! ### The ports of a feed -/

/-- A port whose record is replaced, with events made from the record before. -/
def State.switchPort (x : PortRec) (es : Port → PortRec → List Event) (s : State) (p : Port) : State :=
  (s.setPort p x).raiseAll (es p (s.port p))

/-- Ports switched one after another, each by its own record alone. -/
theorem State.foldl_switchPort (x : PortRec) (es : Port → PortRec → List Event) (l : List Port) (hl : l.Nodup) (s : State) :
    l.foldl (State.switchPort x es) s = { s with
      ports := PerPort.of fun p => if p ∈ l then x else s.port p
      ex := s.ex.joinAll s.frame (l.flatMap fun p => es p (s.port p)) } := by
  induction l generalizing s with
  | nil => simp only [List.foldl_nil, List.not_mem_nil, if_false, List.flatMap_nil, Exchange.joinAll_nil]; rfl
  | cons q l ih =>
    obtain ⟨hq, hl⟩ := List.nodup_cons.1 hl
    have hport (p : Port) : (State.switchPort x es s q).port p = if q = p then x else s.port p := s.setPort_port q p x
    have hevents : (l.flatMap fun p => es p ((State.switchPort x es s q).port p)) = l.flatMap fun p => es p (s.port p) :=
      List.flatMap_congr fun p hp => by rw [hport, if_neg (ne_of_mem_of_not_mem hp hq).symm]
    have hports : (fun p => if p ∈ l then x else (State.switchPort x es s q).port p) =
        fun p => if p ∈ q :: l then x else s.port p := by
      funext p
      by_cases e : q = p
      · subst e; simp [hport]
      · simp [hport, e, Ne.symm e]
    rw [List.foldl_cons, ih hl, hevents, hports, List.flatMap_cons, Exchange.joinAll_append]
    rfl

/-- The LINK event of a port's enable (R137, R148). -/
def enableEvent (tag : Half) (p : Port) (former : PortRec) : List Event :=
  [.link p former.state .seeking .enable 0 none (some tag)]

/-- The LINK event of a port's disable, where it was not OFF (R138, R148). -/
def disableEvent (tag : Half) (p : Port) (former : PortRec) : List Event :=
  if former.state = .off then [] else [.link p former.state .off .disable former.windowCount former.latest (some tag)]

theorem State.portEnable_eq (tag : Half) :
    State.portEnable tag = State.switchPort { resetPort with state := .seeking } (enableEvent tag) := rfl

theorem State.portDisable_eq (tag : Half) : State.portDisable tag = State.switchPort resetPort (disableEvent tag) := by
  funext s p
  rw [State.portDisable, State.switchPort, disableEvent]
  split
  · rfl
  · rfl

theorem feedPorts_nodup (f : Feed) : (feedPorts f).Nodup := by cases f <;> decide

/-- The ports of a feed are those that serve it (section 7.1). -/
theorem mem_feedPorts {f : Feed} {p : Port} : p ∈ feedPorts f ↔ portFeed p = f := by
  cases f <;> cases p <;> decide

/-! ### A feed -/

/-- A feed enabled: its ports leave OFF, and nothing else moves (R67, R137). -/
theorem State.enableFeed_eq (s : State) (f : Feed) (tag : Half) : s.enableFeed f tag = { s with
    feedOn := s.feedOn.set f true
    ports := PerPort.of fun p => if p ∈ feedPorts f then { resetPort with state := .seeking } else s.port p
    ex := s.ex.joinAll s.frame ((feedPorts f).flatMap fun p => enableEvent tag p (s.port p)) } := by
  rw [State.enableFeed, State.portEnable_eq, State.foldl_switchPort _ _ _ (feedPorts_nodup f)]
  rfl

theorem State.ownedBy_nodup (s : State) (f : Feed) : (s.ownedBy f).Nodup := (List.nodup_finRange 64).filter _

theorem State.mem_ownedBy {s : State} {f : Feed} {c : ChanId} : c ∈ s.ownedBy f ↔ (s.chan c).owner = some f := by
  simp [State.ownedBy, State.owns]

/-- A feed disabled: its ports go to OFF, and then every channel it owns is given up (R65, R138). -/
theorem State.disableFeed_eq (s : State) (f : Feed) (tag : Half) : s.disableFeed f tag =
    ({ s with
        feedOn := s.feedOn.set f false
        ports := PerPort.of fun p => if p ∈ feedPorts f then resetPort else s.port p
        ex := s.ex.joinAll s.frame ((feedPorts f).flatMap fun p => disableEvent tag p (s.port p)) } : State).withGivenUp
      f .feedOff tag (s.ownedBy f) := by
  rw [State.disableFeed, State.portDisable_eq, State.foldl_switchPort _ _ _ (feedPorts_nodup f),
    State.foldl_giveUp _ _ _ _ (s.ownedBy_nodup f)]
  rfl

end Sys2Proof.Machine
end

section
/-! PROOFS. The law of R53 under every command: what leaves owners, OWNER modes and enabled feeds alone, and what moves them
together. -/

namespace Sys2Proof.Machine

/-- What the law of R53 speaks of: each channel's owner, the crosspoints in OWNER mode, and the feeds that are enabled. -/
def State.owners (s : State) : (ChanId → Option Feed) × (ChanId → Feed → Bool) × PerFeed Bool :=
  (fun c => (s.chan c).owner, fun c f => (s.xp c f).mode == .owner, s.feedOn)

theorem State.owners_of {s t : State} (hc : ∀ c, (t.chan c).owner = (s.chan c).owner)
    (hx : ∀ c f, (t.xp c f).mode = .owner ↔ (s.xp c f).mode = .owner) (hf : t.feedOn = s.feedOn) :
    t.owners = s.owners := by
  have hmodes (c : ChanId) (f : Feed) : ((t.xp c f).mode == .owner) = ((s.xp c f).mode == .owner) := by
    rw [Bool.eq_iff_iff, beq_iff_eq, beq_iff_eq, hx]
  simp only [State.owners, hc, hmodes, hf]

theorem State.OwnerLaw.of_owners {s t : State} (h : s.OwnerLaw) (ht : t.owners = s.owners) : t.OwnerLaw := by
  simp only [State.owners, Prod.mk.injEq, funext_iff] at ht
  obtain ⟨howner, hmode, hfeed⟩ := ht
  have hmode (c : ChanId) (f : Feed) : (t.xp c f).mode = .owner ↔ (s.xp c f).mode = .owner := by
    rw [← beq_iff_eq, hmode, beq_iff_eq]
  refine ⟨fun c f => ?_, fun c f hc => ?_⟩
  · rw [hmode, howner, h.1]
  · rw [hfeed]
    exact h.2 c f (by rw [← howner, hc])

/-! ### Channel records and crosspoints -/

section records
variable (c : ChanId) (ch : Chan)

theorem Chan.settleCheck_owner : (ch.settleCheck c).1.owner = ch.owner :=
  congrArg Prod.fst (ch.settleCheck_standing c)

theorem Chan.stepAnswer_owner (now : Word) (sent held : SentState) (fault : Bool) :
    (ch.stepAnswer c now sent held fault).1.owner = ch.owner := by
  have hphantom (x : Chan) : (x.answerPhantom c held.phantom fault).1.owner = x.owner := by
    unfold Chan.answerPhantom Chan.faultPhantom
    split
    · rfl
    · split <;> rfl
  have hsetting (x : Chan) : (x.answerSetting now held.setting).owner = x.owner := by
    unfold Chan.answerSetting
    split <;> rfl
  have hafter (x : Chan) : (x.afterAnswer c).1.owner = x.owner := by
    unfold Chan.afterAnswer
    split
    · rfl
    · split
      · exact x.settleCheck_owner c
      · rfl
      · split <;> rfl
      all_goals exact x.settleCheck_owner c
  rw [Chan.stepAnswer]
  exact (hafter _).trans ((hsetting _).trans (hphantom _))

theorem Chan.readUpdate_owner (read : SentState) (fault : Bool) : (ch.readUpdate c read fault).1.owner = ch.owner := by
  have hfault : (if fault = true then ch.faultPhantom c else (ch, [])).1.owner = ch.owner := by split <;> rfl
  unfold Chan.readUpdate
  dsimp only
  generalize (if fault = true then ch.faultPhantom c else (ch, [])) = p at hfault ⊢
  split
  · exact hfault
  · exact hfault

theorem Chan.afterDisagreement_owner : (ch.afterDisagreement c).1.owner = ch.owner := by
  unfold Chan.afterDisagreement
  split
  case h_3 => exact ch.settleCheck_owner c
  case h_5 | h_6 => rfl
  all_goals split <;> rfl

theorem Chan.startUp_owner (read : SentState) (fault : Bool) : (ch.startUp c read fault).1.owner = ch.owner := by
  unfold Chan.startUp
  refine (Chan.settleCheck_owner c _).trans ?_
  cases fault <;> rfl

theorem Chan.readback_owner (read : SentState) (fault : Bool) : (ch.readback c read fault).1.owner = ch.owner := by
  unfold Chan.readback
  split
  · exact ch.startUp_owner c read fault
  · split
    · exact (Chan.settleCheck_owner c _).trans (ch.readUpdate_owner c read fault)
    · split
      · split <;> rfl
      · exact (Chan.afterDisagreement_owner c _).trans (ch.readUpdate_owner c read fault)

theorem Chan.applyHead_owner : (ch.applyHead c).1.owner = ch.owner := by
  unfold Chan.applyHead
  split
  · rfl
  · dsimp only
    split
    · exact Chan.settleCheck_owner c _
    · rfl

/-- A new applied level brings no crosspoint into OWNER mode or out of it. -/
theorem Xp.relevel_owner (x : Xp) (old new : Int) : (x.relevel old new).mode = .owner ↔ x.mode = .owner := by
  unfold Xp.relevel
  split
  · rfl
  · split
    · next h => simp [h]
    · rfl
    · rfl
  · rfl

end records

/-! ### The updates of the state -/

section updates
variable (s : State)

@[simp] theorem State.setEx_owners (x : Exchange) : (s.setEx x).owners = s.owners := rfl
@[simp] theorem State.setBoard_owners (b : BoardId) (x : Board) : (s.setBoard b x).owners = s.owners := rfl
@[simp] theorem State.setGuard_owners (c : ChanId) (g : Guard) : (s.setGuard c g).owners = s.owners := rfl
@[simp] theorem State.setPort_owners (p : Port) (x : PortRec) : (s.setPort p x).owners = s.owners := rfl
@[simp] theorem State.raise_owners (e : Event) : (s.raise e).owners = s.owners := rfl
@[simp] theorem State.raiseAll_owners (es : List Event) : (s.raiseAll es).owners = s.owners := rfl
@[simp] theorem State.freeLine_owners : s.freeLine.owners = s.owners := rfl
@[simp] theorem State.finish_owners (t : TakeHead) (r : Result) (y : Option (List Byte)) :
    (s.finish t r y).owners = s.owners := rfl
@[simp] theorem State.hold_owners (t : TakeHead) (r : Result) (y : XpReply) : (s.hold t r y).owners = s.owners := rfl

variable {s}

theorem State.setChan_owners {c : ChanId} {x : Chan} (h : x.owner = (s.chan c).owner) :
    (s.setChan c x).owners = s.owners := by
  refine State.owners_of (fun d => ?_) (fun _ _ => Iff.rfl) rfl
  rw [State.setChan_chan]
  split
  · next e => rw [h, e]
  · rfl

theorem State.putChan_owners {c : ChanId} {r : Chan × List Event} (h : r.1.owner = (s.chan c).owner) :
    (s.putChan c r).owners = s.owners := by
  refine State.owners_of (fun d => ?_) (fun d f => ?_) rfl
  · rw [State.putChan_chan]
    split
    · next e => rw [h, e]
    · rfl
  · rw [State.putChan_xp]
    split
    · exact Xp.relevel_owner _ _ _
    · rfl

theorem State.setXp_owners {c : ChanId} {f : Feed} {x : Xp} (h : x.mode = .owner ↔ (s.xp c f).mode = .owner) :
    (s.setXp c f x).owners = s.owners := by
  refine State.owners_of (fun _ => rfl) (fun d g => ?_) rfl
  rw [State.setXp_xp]
  split
  · next e => rw [h, e.1, e.2]
  · rfl

end updates

/-! ### The line and the arbiter -/

section line
variable (s : State)

theorem State.startFor_owners (r : ReqId) : (s.startFor r).owners = s.owners := by
  unfold State.startFor
  split
  · next c _ => exact State.setChan_owners (s := s) (c := c) (x := (s.chan c).granted) rfl
  · rfl

theorem State.arbitrate_owners (first : Option ReqId) : (s.arbitrate first).owners = s.owners := by
  unfold State.arbitrate
  split
  · rfl
  · split
    · rfl
    · exact s.startFor_owners _

theorem State.readbackSucceeds_owners (b : BoardId) (data : List Byte) : (s.readbackSucceeds b data).owners = s.owners := by
  have hchans (t : State) : (t.readbackChans b data).owners = t.owners :=
    foldl_keeps (g := State.owners) (fun _ _ => State.putChan_owners (Chan.readback_owner _ _ _ _)) _ _
  unfold State.readbackSucceeds
  dsimp only
  split
  · rw [State.raise_owners, hchans, State.setBoard_owners]
  · rw [hchans, State.setBoard_owners]

theorem State.txSucceeds_owners (t : InFlight) : (s.txSucceeds t).owners = s.owners := by
  unfold State.txSucceeds
  split
  · exact (State.putChan_owners (Chan.stepAnswer_owner _ _ _ _ _ _)).trans (s.setBoard_owners _ _)
  · exact s.readbackSucceeds_owners _ _

theorem State.boardOffline_owners (b : BoardId) (err : LineError) : (s.boardOffline b err).owners = s.owners := by
  unfold State.boardOffline
  rw [State.raise_owners]
  exact foldl_keeps (g := State.owners)
    (fun t i => State.setChan_owners (x := (t.chan (chanAt b i)).boardLost) rfl) _ _

theorem State.stepFails_owners (c : ChanId) (err : LineError) : (s.stepFails c err).owners = s.owners := by
  unfold State.stepFails
  dsimp only
  rw [State.raise_owners, State.putChan_owners rfl, State.setBoard_owners]

theorem State.txFails_owners (t : InFlight) (err : LineError) : (s.txFails t err).owners = s.owners := by
  have hlost (u : State) (hu : u.owners = s.owners) (p : Bool) :
      (if p then u.boardOffline t.board err else u).owners = s.owners := by
    split
    · exact (u.boardOffline_owners _ _).trans hu
    · exact hu
  unfold State.txFails
  cases t.kind with
  | step c sent => exact hlost _ (s.stepFails_owners c err) _
  | readback => exact hlost _ (s.setBoard_owners _ _) _

theorem State.receiveChar_owners (ch : LineChar) : (s.receiveChar ch).owners = s.owners := by
  unfold State.receiveChar
  split
  · rfl
  · dsimp only
    split
    · unfold State.txComplete
      split
      · exact s.txSucceeds_owners _
      · exact s.txFails_owners _ _
    · rfl

theorem State.windowExpires_owners : s.windowExpires.owners = s.owners := by
  unfold State.windowExpires
  split
  · rfl
  · split
    · exact s.txFails_owners _ _
    · rfl

end line

/-! ### The steps of a channel, and what is due before a sample -/

section due
variable (s : State) (c : ChanId)

theorem State.forceStep_owners : (s.forceStep c).owners = s.owners := by
  unfold State.forceStep
  split
  · exact State.setChan_owners rfl
  · rfl

theorem State.finishRamp_owners : (s.finishRamp c).owners = s.owners := by
  unfold State.finishRamp
  split
  · exact State.putChan_owners rfl
  · rfl

theorem State.applyPending_owners : (s.applyPending c).owners = s.owners := by
  unfold State.applyPending
  split
  · exact State.putChan_owners (Chan.applyHead_owner _ _)
  · rfl

theorem State.catchUp_owners : s.catchUp.owners = s.owners := by
  have hdue (t : State) (d : ChanId) : (t.chanDue d).owners = t.owners := by
    rw [State.chanDue, State.applyPending_owners, State.finishRamp_owners, State.forceStep_owners]
  unfold State.catchUp
  split
  · rfl
  · rw [State.arbitrate_owners, State.windowExpires_owners, foldl_keeps (g := State.owners) hdue, State.setEx_owners]

end due

/-! ### Samples -/

section samples
variable (s : State)

theorem State.judgeLane_owners (g : LaneId) (f : LaneInput) : (s.judgeLane g f).owners = s.owners := by
  unfold State.judgeLane
  dsimp only
  split
  · rfl
  · rfl

theorem State.sampled_owners : s.sampled.owners = s.owners := by
  refine State.owners_of (fun c => ?_) (fun c f => ?_) ?_
  · rw [State.sampled_chan]; rfl
  · rw [State.sampled_xp]; rfl
  · simp only [State.sampled, State.sendFrames, State.watchAll, State.computeSample, State.raiseAll_feedOn]

theorem State.endPeriod_owners : s.endPeriod.owners = s.owners := by
  refine State.owners_of (fun c => ?_) (fun c f => ?_) ?_
  · rw [State.endPeriod_chan]
  · rw [State.endPeriod_xp]
  · simp only [State.endPeriod]

end samples

/-! ### Block boundaries -/

section boundary
variable {s : State}

theorem State.meterChan_owners (c : ChanId) : (s.meterChan c).owners = s.owners := by
  obtain ⟨ch, hg, he⟩ := s.meterChan_cases c
  have howner : ch.owner = (s.chan c).owner := by
    rcases hg with rfl | ⟨-, rfl⟩
    · rfl
    · exact congrArg Prod.fst ((s.chan c).guardTarget_standing c _)
  rw [he]
  exact State.setChan_owners howner

/-- A swap puts each record's owner and its crosspoint's OWNER mode in force together, and installs none whose feed is off
(R123). -/
theorem State.OwnerLaw.exchangeBanks (h : s.OwnerLaw) : s.exchangeBanks.OwnerLaw := by
  have hfeeds : s.exchangeBanks.feedOn = s.feedOn := by rw [State.exchangeBanks_frame]
  refine ⟨fun c f => ?_, fun c f hc => ?_⟩
  · rw [State.exchangeBanks_xp, State.exchangeBanks_owner]
    split
    · have hinstall (x : Xp) (r : SceneRecord) (o : Option Feed) : (x.install r o f).mode = .owner ↔ o = some f := by
        unfold Xp.install
        dsimp only
        split
        · next e => simp [e]
        · next e => split <;> simp [e]
      exact hinstall _ _ _
    · exact h.1 c f
  · rw [State.exchangeBanks_owner] at hc
    rw [hfeeds]
    split at hc
    · exact ((s.sceneOwner_eq_some _ f).1 hc).2
    · exact h.2 c f hc

/-- The law does not speak of the boundary's other work. -/
theorem State.OwnerLaw.withOthers (t : State) (owed : List BoundaryUnit) (clock : Clock) (ex : Exchange)
    (boards : Vector Board 8) (ports : PerPort PortRec) (h : t.OwnerLaw) :
    ({ t with owed := owed, clock := clock, ex := ex, boards := boards, ports := ports } : State).OwnerLaw := h

theorem State.OwnerLaw.boundaryWork (us : List BoundaryUnit) (ph : PhaseInput) (h : s.OwnerLaw) :
    (s.boundaryWork us ph).OwnerLaw :=
  State.boundaryWork_induct (P := State.OwnerLaw) (fun _ _ ht => ht)
    (fun _ _ _ _ ht => State.unitWork_induct State.OwnerLaw.withOthers
      (fun _ _ c hu => hu.of_owners (State.meterChan_owners c)) (fun _ _ hu => hu.exchangeBanks) ht) h

theorem State.closeInterval_owners (s : State) : s.closeInterval.owners = s.owners := by
  refine State.owners_of (fun c => ?_) (fun c f => ?_) ?_
  · rw [State.closeInterval_frame]; rfl
  · rw [State.closeInterval_xp]
  · rw [State.closeInterval_frame]

theorem State.exchangeSettled_owners (s : State) : s.exchangeSettled.owners = s.owners :=
  (State.setEx_owners _ _).trans s.closeInterval_owners

theorem State.OwnerLaw.boundaryRest (h : s.OwnerLaw) : s.boundaryRest.OwnerLaw := by
  rw [State.boundaryRest_eq]
  split
  · exact h
  · have hmade : s.boundaryMade.OwnerLaw :=
      State.boundaryMade_induct State.OwnerLaw.withOthers (fun _ _ c ht => ht.of_owners (State.meterChan_owners c))
        (fun _ _ ht => ht.exchangeBanks) h
    exact hmade.of_owners s.boundaryMade.exchangeSettled_owners

theorem State.putClock_owners (s : State) (m : ClockMove) (tag : Option Half) : (s.putClock m tag).owners = s.owners := by
  rw [State.putClock_frame]; rfl

theorem State.clockSettled_owners (s : State) : s.clockSettled.owners = s.owners := by
  rw [State.clockSettled_frame]; rfl

end boundary

/-! ### Changes of owner -/

section changes
variable {s : State}

theorem Xp.enterTrack_not_owner (x : Xp) (lapp : Int) : (x.enterTrack lapp).mode ≠ .owner := by
  unfold Xp.enterTrack
  split
  · next h => simp [h]
  · simp
  · simp

theorem Xp.leaveTrack_mode (x : Xp) (mode : XpMode) (lapp : Int) : (x.leaveTrack mode lapp).mode = mode := by
  unfold Xp.leaveTrack
  split <;> rfl

/-- An owner changed on one channel keeps the law, where the channel's crosspoints have been brought in line with it. -/
theorem State.OwnerLaw.changeOwner {t : State} {c : ChanId} {new : Option Feed} (k : OwnCause) (tag : Half)
    (h : s.OwnerLaw) (hchans : t.chans = s.chans) (hxps : ∀ d f, d ≠ c → t.xp d f = s.xp d f)
    (hfeeds : t.feedOn = s.feedOn) (hmode : ∀ f, (t.xp c f).mode = .owner ↔ new = some f)
    (hnew : ∀ f, new = some f → s.feedOn.get f = true) : (t.changeOwner c new k tag).OwnerLaw := by
  have howner (d : ChanId) : ((t.changeOwner c new k tag).chan d).owner = if c = d then new else (s.chan d).owner := by
    have hd : (t.changeOwner c new k tag).chan d =
        if c = d then { ((t.chan c).cancel c k).1 with owner := new } else t.chan d := by
      rw [State.changeOwner_eq]
      exact upd_get _ _ _ _
    rw [hd, State.chan, State.chan, hchans]
    split <;> rfl
  have hxp (d : ChanId) (f : Feed) : (t.changeOwner c new k tag).xp d f = t.xp d f := by
    rw [State.changeOwner_eq]; rfl
  have hfeeds : (t.changeOwner c new k tag).feedOn = s.feedOn := by
    rw [State.changeOwner_eq]; exact hfeeds
  refine ⟨fun d f => ?_, fun d f => ?_⟩
  · rw [howner, hxp]
    split
    · next e => exact e ▸ hmode f
    · next e => rw [hxps d f (Ne.symm e)]; exact h.1 d f
  · rw [howner, hfeeds]
    split
    · exact hnew f
    · exact h.2 d f

/-- Crosspoints of other channels are left alone. -/
theorem State.setXp_xp_other (s : State) {c d : ChanId} (f g : Feed) (x : Xp) (h : d ≠ c) :
    (s.setXp c f x).xp d g = s.xp d g := by
  rw [State.setXp_xp, if_neg fun e => h e.1.symm]

theorem State.OwnerLaw.giveUp {c : ChanId} {f : Feed} (k : OwnCause) (tag : Half) (h : s.OwnerLaw)
    (ho : (s.chan c).owner = some f) : (s.giveUp c f k tag).OwnerLaw := by
  refine h.changeOwner k tag rfl (fun d g hd => s.setXp_xp_other f g _ hd) rfl (fun g => ?_) (by simp)
  rw [State.enterTrack, State.setXp_xp]
  split
  · simp [Xp.enterTrack_not_owner]
  · next hg =>
    have hg : f ≠ g := fun e => hg ⟨rfl, e⟩
    simp [h.1, ho, hg]

theorem State.OwnerLaw.claimFree {c : ChanId} {f : Feed} (tag : Half) (h : s.OwnerLaw) (ho : (s.chan c).owner = none)
    (hf : s.feedOn.get f = true) : (s.claimFree c f tag).OwnerLaw := by
  refine h.changeOwner .claim tag rfl (fun d g hd => s.setXp_xp_other f g _ hd) rfl (fun g => ?_) (by simp [hf])
  rw [State.leaveTrack, State.setXp_xp]
  split
  · next hg => simp [Xp.leaveTrack_mode, hg.2]
  · next hg =>
    have hg : f ≠ g := fun e => hg ⟨rfl, e⟩
    simp [h.1, ho, hg]

theorem State.OwnerLaw.takeOver {c : ChanId} {e f : Feed} (tag : Half) (h : s.OwnerLaw) (ho : (s.chan c).owner = some e)
    (hf : s.feedOn.get f = true) : (s.takeOver c e f tag).OwnerLaw := by
  refine h.changeOwner .takeover tag rfl (fun d g hd => ?_) rfl (fun g => ?_) (by simp [hf])
  · rw [State.leaveTrack, State.setXp_xp_other _ _ _ _ hd, State.enterTrack, State.setXp_xp_other _ _ _ _ hd]
  · rw [State.leaveTrack, State.setXp_xp]
    split
    · next hg => simp [Xp.leaveTrack_mode, hg.2]
    · next hg =>
      have hg : f ≠ g := fun e => hg ⟨rfl, e⟩
      rw [State.enterTrack, State.setXp_xp]
      split
      · simp [Xp.enterTrack_not_owner, hg]
      · next he =>
        have he : e ≠ g := fun e => he ⟨rfl, e⟩
        simp [h.1, ho, he, hg]

/-- A feed disabled keeps the law: the channels it owned have no owner (R65). -/
theorem State.OwnerLaw.disableFeed (f : Feed) (tag : Half) (h : s.OwnerLaw) : (s.disableFeed f tag).OwnerLaw := by
  have howner (c : ChanId) : ((s.disableFeed f tag).chan c).owner =
      if (s.chan c).owner = some f then none else (s.chan c).owner := by
    rw [State.disableFeed_eq, State.withGivenUp_chan]
    simp only [State.mem_ownedBy]
    split <;> rfl
  have hxp (c : ChanId) (g : Feed) : (s.disableFeed f tag).xp c g =
      if (s.chan c).owner = some f ∧ f = g then (s.xp c f).enterTrack (s.chan c).level else s.xp c g := by
    rw [State.disableFeed_eq, State.withGivenUp_xp]
    simp only [State.mem_ownedBy]
    rfl
  have hfeeds : (s.disableFeed f tag).feedOn = s.feedOn.set f false := by rw [State.disableFeed_eq]; rfl
  refine ⟨fun c g => ?_, fun c g => ?_⟩
  · rw [howner, hxp]
    by_cases ho : (s.chan c).owner = some f
    · by_cases hg : f = g
      · simp [ho, hg, Xp.enterTrack_not_owner]
      · simp [ho, hg, h.1]
    · simp [ho, h.1]
  · rw [howner, hfeeds, PerFeed.set_get]
    intro hc
    split at hc
    · exact absurd hc nofun
    · next ho =>
      have hg : f ≠ g := by rintro rfl; exact ho hc
      rw [if_neg hg]
      exact h.2 c g hc

/-- A feed enabled keeps the law. -/
theorem State.OwnerLaw.enableFeed (f : Feed) (tag : Half) (h : s.OwnerLaw) : (s.enableFeed f tag).OwnerLaw := by
  rw [State.enableFeed_eq]
  refine ⟨h.1, fun c g hc => ?_⟩
  change (s.feedOn.set f true).get g = true
  rw [PerFeed.set_get]
  split
  · rfl
  · exact h.2 c g hc

end changes

/-! ### Requests -/

namespace State.OwnerLaw

variable {s : State}

theorem finish (t : TakeHead) (r : Result) (y : Option (List Byte)) (h : s.OwnerLaw) : (s.finish t r y).OwnerLaw := h
theorem hold (t : TakeHead) (r : Result) (y : XpReply) (h : s.OwnerLaw) : (s.hold t r y).OwnerLaw := h
theorem setEx (x : Exchange) (h : s.OwnerLaw) : (s.setEx x).OwnerLaw := h
theorem withScenes (x : SceneStore) (h : s.OwnerLaw) : ({ s with scenes := x } : State).OwnerLaw := h

theorem withChan (t : TakeHead) {k : ChanId → Source → State} (hk : ∀ c src, (k c src).OwnerLaw) (h : s.OwnerLaw) :
    (s.withChan t k).OwnerLaw := by
  unfold State.withChan
  split
  · exact h.finish _ _ _
  · exact h.finish _ _ _
  · exact hk _ _

theorem withXp (t : TakeHead) {k : ChanId → Feed → State} (hk : ∀ c f, (k c f).OwnerLaw) (h : s.OwnerLaw) :
    (s.withXp t k).OwnerLaw := by
  unfold State.withXp
  split
  · exact h.finish _ _ _
  · exact h.finish _ _ _
  · exact h.finish _ _ _
  · split
    · exact hk _ _
    · exact h.finish _ _ _

theorem withFeed (t : TakeHead) {k : Feed → State} (hk : ∀ f, (k f).OwnerLaw) (h : s.OwnerLaw) :
    (s.withFeed t k).OwnerLaw := by
  unfold State.withFeed
  split
  · exact h.finish _ _ _
  · exact h.finish _ _ _
  · split
    · exact hk _
    · exact h.finish _ _ _

theorem withSource (h : s.OwnerLaw) (t : TakeHead) {k : State} (hk : k.OwnerLaw) : (s.withSource t k).OwnerLaw := by
  unfold State.withSource
  split
  · exact h.finish _ _ _
  · exact hk

theorem holdOrFinish (t : TakeHead) (changes : Bool) (r : Result) (reply : XpReply) (h : s.OwnerLaw) :
    (s.holdOrFinish t changes r reply).OwnerLaw := by
  unfold State.holdOrFinish
  split
  · exact h.hold _ _ _
  · exact h.finish _ _ _

/-- A trim set, or left alone, moves no mode. -/
theorem setTrim (c : ChanId) (f : Feed) (trim lapp : Int) (h : s.OwnerLaw) :
    (s.setXp c f (if trim = (s.xp c f).trim then s.xp c f else (s.xp c f).setTrim trim lapp)).OwnerLaw := by
  refine h.of_owners (State.setXp_owners ?_)
  split
  · rfl
  · rfl

theorem requestTarget (c : ChanId) (tag : Option Half) (x : Setting) (h : s.OwnerLaw) :
    (s.putChan c ((s.chan c).requestTarget c tag x)).OwnerLaw :=
  h.of_owners (State.putChan_owners (congrArg Prod.fst ((s.chan c).requestTarget_standing c tag x)))

theorem serveSetAnalog (t : TakeHead) (code : Half) (h : s.OwnerLaw) : (s.serveSetAnalog t code).OwnerLaw := by
  refine h.withChan t fun c src => ?_
  dsimp only
  split
  · exact (h.requestTarget c _ _).finish _ _ _
  · split
    · exact h.finish _ _ _
    · exact (h.setTrim c _ _ _).holdOrFinish _ _ _ _

theorem serveSetPad (t : TakeHead) (v : Byte) (h : s.OwnerLaw) : (s.serveSetPad t v).OwnerLaw := by
  refine h.withChan t fun c src => ?_
  dsimp only
  split
  · exact h.finish _ _ _
  · split
    · exact (h.requestTarget c _ _).finish _ _ _
    · exact h.finish _ _ _

theorem serveSetPhantom (t : TakeHead) (v : Byte) (h : s.OwnerLaw) : (s.serveSetPhantom t v).OwnerLaw := by
  refine h.withChan t fun c src => ?_
  dsimp only
  split
  · exact h.finish _ _ _
  · split
    · exact h.finish _ _ _
    · split
      · exact h.finish _ _ _
      · exact (h.of_owners (State.setChan_owners (x := (s.chan c).setPhantom (v == 1#8)) rfl)).finish _ _ _

theorem serveResync (t : TakeHead) (h : s.OwnerLaw) : (s.serveResync t).OwnerLaw := by
  refine h.withChan t fun c _ => ?_
  dsimp only
  rw [State.retryReadback_setBoard]
  exact (h.of_owners (s.setBoard_owners _ _)).finish _ _ _

theorem serveSetGuard (t : TakeHead) (e : Byte) (a b c d : Half) (h : s.OwnerLaw) :
    (s.serveSetGuard t e a b c d).OwnerLaw := by
  refine h.withChan t fun c src => ?_
  dsimp only
  split
  · exact h.finish _ _ _
  · split
    · exact h.finish _ _ _
    · exact (h.of_owners (s.setGuard_owners _ _)).finish _ _ _

theorem serveSetTrim (t : TakeHead) (trim : Half) (h : s.OwnerLaw) : (s.serveSetTrim t trim).OwnerLaw :=
  h.withXp t fun c f => (h.setTrim c f _ _).holdOrFinish _ _ _ _

/-- SET_MODE moves a crosspoint between FOLLOW and TRACK alone (R59). -/
theorem serveSetMode (t : TakeHead) (v : Byte) (h : s.OwnerLaw) : (s.serveSetMode t v).OwnerLaw := by
  refine h.withXp t fun c f => ?_
  dsimp only
  split
  · exact h.finish _ _ _
  · split
    · exact h.finish _ _ _
    · next hm =>
      split
      · refine (h.of_owners (State.setXp_owners ?_)).hold _ _ _
        simp [Xp.enterTrack_not_owner, hm]
      · exact h.finish _ _ _
    · next hm =>
      split
      · exact h.finish _ _ _
      · refine (h.of_owners (State.setXp_owners ?_)).hold _ _ _
        simp [Xp.leaveTrack_mode, hm]

theorem serveSetFlags (t : TakeHead) (mute invert : Byte) (h : s.OwnerLaw) : (s.serveSetFlags t mute invert).OwnerLaw := by
  refine h.withXp t fun c f => ?_
  dsimp only
  split
  · exact h.finish _ _ _
  · refine State.OwnerLaw.holdOrFinish _ _ _ _ (h.of_owners (State.setXp_owners ?_))
    rfl

theorem serveClaim (t : TakeHead) (h : s.OwnerLaw) : (s.serveClaim t).OwnerLaw := by
  refine h.withXp t fun c f => ?_
  dsimp only
  split
  · exact h.finish _ _ _
  · next hf =>
    have hf : s.feedOn.get f = true := by simpa using hf
    split
    · next ho => exact (h.claimFree _ ho hf).hold _ _ _
    · next ho =>
      split
      · exact h.finish _ _ _
      · split
        · exact (h.takeOver _ ho hf).hold _ _ _
        · exact h.finish _ _ _

theorem serveRelease (t : TakeHead) (h : s.OwnerLaw) : (s.serveRelease t).OwnerLaw := by
  refine h.withXp t fun c f => ?_
  dsimp only
  split
  · next ho => exact (h.giveUp _ _ ho).hold _ _ _
  · exact h.finish _ _ _

theorem serveSetFeed (t : TakeHead) (enable senior : Byte) (h : s.OwnerLaw) :
    (s.serveSetFeed t enable senior).OwnerLaw := by
  refine h.withFeed t fun f => ?_
  have hs : ({ s with senior := selectSenior senior f s.senior } : State).OwnerLaw := h
  dsimp only
  split
  · exact h.finish _ _ _
  · refine State.OwnerLaw.finish _ _ _ ?_
    split
    · exact hs.disableFeed f t.tag
    · split
      · exact hs.enableFeed f t.tag
      · exact hs

theorem serveLoadSlotmap (t : TakeHead) (map : Word) (h : s.OwnerLaw) : (s.serveLoadSlotmap t map).OwnerLaw := by
  refine h.withFeed t fun f => ?_
  dsimp only
  split
  · exact h.finish _ _ _
  · split
    · exact h.finish _ _ _
    · exact h

theorem serveLoadShadow (t : TakeHead) (table : Word) (first count : Byte) (h : s.OwnerLaw) :
    (s.serveLoadShadow t table first count).OwnerLaw := by
  refine h.withSource t ?_
  dsimp only
  split
  · exact h.finish _ _ _
  · split
    · exact h.finish _ _ _
    · split
      · exact h.finish _ _ _
      · split
        · exact h.finish _ _ _
        · exact State.OwnerLaw.finish _ _ _ (h.withScenes _)

theorem serveSwap (t : TakeHead) (mask : ChanMask) (h : s.OwnerLaw) : (s.serveSwap t mask).OwnerLaw := by
  refine h.withSource t ?_
  split
  · exact h.finish _ _ _
  · split
    · exact h.finish _ _ _
    · exact h

theorem serveSetClock (t : TakeHead) (source : Byte) (h : s.OwnerLaw) : (s.serveSetClock t source).OwnerLaw := by
  have hselect (u : State) (src : ClockSource) : (u.selectClock src t.tag).owners = u.owners := by
    unfold State.selectClock
    dsimp only
    split
    · rfl
    · exact u.putClock_owners _ _
  refine h.withSource t ?_
  split
  · exact h.finish _ _ _
  · exact (h.of_owners ((hselect _ _).trans s.clockSettled_owners)).finish _ _ _

theorem serveSetExchange (t : TakeHead) (select : Byte) (threshold poll meter : Half) (unitId : Byte) (h : s.OwnerLaw) :
    (s.serveSetExchange t select threshold poll meter unitId).OwnerLaw := by
  refine h.withSource t ?_
  split
  · exact h.finish _ _ _
  · exact ((h.of_owners s.exchangeSettled_owners).setEx _).finish _ _ _

theorem serveKind (t : TakeHead) (h : s.OwnerLaw) : (s.serveKind t).OwnerLaw := by
  unfold State.serveKind
  dsimp only
  split
  · exact h.serveSetAnalog t _
  · exact h.serveSetPad t _
  · exact h.serveSetPhantom t _
  · exact h.withChan t fun c _ => h.finish _ _ _
  · exact h.serveResync t
  · exact h.serveSetGuard t _ _ _ _ _
  · exact h.serveSetTrim t _
  · exact h.serveSetMode t _
  · exact h.serveSetFlags t _ _
  · exact h.serveClaim t
  · exact h.serveRelease t
  · exact h.serveSetFeed t _ _
  · exact h.serveLoadSlotmap t _
  · exact h.serveLoadShadow t _ _ _
  · exact h.serveSwap t _
  · exact h.serveSetClock t _
  · exact h.serveSetExchange t _ _ _ _ _
  · exact h.finish _ _ _

theorem walkStep (h : s.OwnerLaw) : s.walkStep.OwnerLaw := by
  unfold State.walkStep
  dsimp only
  split
  · split
    · exact h.setEx _
    · split
      · exact h.setEx _
      · exact h.serveKind _
  · exact h

/-- A request keeps the law where its take does. -/
theorem request {r : ReqHead} {kind : Byte} {args : List Byte} {serve : State → TakeHead → State} {t : State}
    (h : s.OwnerLaw) (ht : s.request r kind args serve = .next t) (hs : ∀ u t, u.OwnerLaw → (serve u t).OwnerLaw) :
    t.OwnerLaw := by
  obtain rfl := Host.Outcome.next.inj ht
  have hoffer := h.setEx (s.ex.offer r kind args)
  split
  · split
    · exact hs _ _ hoffer
    · exact hoffer.setEx _
  · exact hoffer

end State.OwnerLaw

/-! ### Every command -/

/-- Every command keeps the law of R53. -/
theorem exec_ownerLaw {i : Instr} {s t : State} (h : s.OwnerLaw) (ht : exec i s = .next t) : t.OwnerLaw := by
  cases i with
  | badKind r kind =>
    simp only [exec, execBadKind] at ht
    refine h.request ht fun u t hu => ?_
    split
    · exact hu.serveKind t
    · exact hu.finish _ _ _
  | setAnalog r code =>
    simp only [exec, execSetAnalog] at ht
    exact h.request ht fun u t hu => hu.serveSetAnalog t _
  | setPad r v =>
    simp only [exec, execSetPad] at ht
    exact h.request ht fun u t hu => hu.serveSetPad t _
  | setPhantom r v =>
    simp only [exec, execSetPhantom] at ht
    exact h.request ht fun u t hu => hu.serveSetPhantom t _
  | readChannel r =>
    simp only [exec, execReadChannel] at ht
    exact h.request ht fun u t hu => hu.withChan t fun c _ => hu.finish _ _ _
  | resync r =>
    simp only [exec, execResync] at ht
    exact h.request ht fun u t hu => hu.serveResync t
  | setGuard r e a b c d =>
    simp only [exec, execSetGuard] at ht
    exact h.request ht fun u t hu => hu.serveSetGuard t _ _ _ _ _
  | setTrim r v =>
    simp only [exec, execSetTrim] at ht
    exact h.request ht fun u t hu => hu.serveSetTrim t _
  | setMode r v =>
    simp only [exec, execSetMode] at ht
    exact h.request ht fun u t hu => hu.serveSetMode t _
  | setFlags r m v =>
    simp only [exec, execSetFlags] at ht
    exact h.request ht fun u t hu => hu.serveSetFlags t _ _
  | claim r =>
    simp only [exec, execClaim] at ht
    exact h.request ht fun u t hu => hu.serveClaim t
  | release r =>
    simp only [exec, execRelease] at ht
    exact h.request ht fun u t hu => hu.serveRelease t
  | setFeed r e v =>
    simp only [exec, execSetFeed] at ht
    exact h.request ht fun u t hu => hu.serveSetFeed t _ _
  | loadSlotmap r map =>
    simp only [exec, execLoadSlotmap] at ht
    exact h.request ht fun u t hu => hu.serveLoadSlotmap t _
  | loadShadow r table first count =>
    simp only [exec, execLoadShadow] at ht
    exact h.request ht fun u t hu => hu.serveLoadShadow t _ _ _
  | swap r mask =>
    simp only [exec, execSwap] at ht
    exact h.request ht fun u t hu => hu.serveSwap t _
  | setClock r src =>
    simp only [exec, execSetClock] at ht
    exact h.request ht fun u t hu => hu.serveSetClock t _
  | setExchange r select a b c d =>
    simp only [exec, execSetExchange] at ht
    exact h.request ht fun u t hu => hu.serveSetExchange t _ _ _ _ _
  | chainWalk writes =>
    simp only [exec, execChainWalk] at ht
    split at ht
    · cases ht
    · obtain rfl := Host.Outcome.next.inj ht
      exact (h.setEx _).walkStep
  | powerOnReset => obtain rfl := Host.Outcome.next.inj ht; exact resetIsSafe.2.1
  | samplePeriod =>
    rw [exec_samplePeriod] at ht
    obtain rfl := Host.Outcome.next.inj ht
    have hbefore : s.before.OwnerLaw := h.of_owners s.catchUp_owners
    exact (hbefore.of_owners s.before.sampled_owners).boundaryRest.of_owners (State.endPeriod_owners _)
  | laneFrame g f => obtain rfl := Host.Outcome.next.inj ht; exact h.of_owners (s.judgeLane_owners g f)
  | arbiterDecision first => obtain rfl := Host.Outcome.next.inj ht; exact h.of_owners (s.arbitrate_owners _)
  | answerCharacter ch => obtain rfl := Host.Outcome.next.inj ht; exact h.of_owners (s.receiveChar_owners ch)
  | answerWindowExpiry => obtain rfl := Host.Outcome.next.inj ht; exact h.of_owners s.windowExpires_owners
  | forcedStep c => obtain rfl := Host.Outcome.next.inj ht; exact h.of_owners (s.forceStep_owners c)
  | pendingApplication c => obtain rfl := Host.Outcome.next.inj ht; exact h.of_owners (s.applyPending_owners c)
  | rampEnd c => obtain rfl := Host.Outcome.next.inj ht; exact h.of_owners (s.finishRamp_owners c)
  | blockBoundary us ph => obtain rfl := Host.Outcome.next.inj ht; exact h.boundaryWork us ph
  | swapApply => obtain rfl := Host.Outcome.next.inj ht; exact h.boundaryWork _ _
  | meterClose => obtain rfl := Host.Outcome.next.inj ht; exact h.of_owners s.closeInterval_owners
  | acquisitionTimeout =>
    obtain rfl := Host.Outcome.next.inj ht
    unfold State.acquisitionGivesUp
    split
    · exact h.of_owners (s.putClock_owners _ _)
    · exact h
  | clockRetry =>
    obtain rfl := Host.Outcome.next.inj ht
    unfold State.clockRetries
    split
    · exact h.of_owners (s.putClock_owners _ _)
    · exact h
  | readbackRetry b =>
    obtain rfl := Host.Outcome.next.inj ht
    unfold State.retryReadback
    split
    · exact h
    · exact h
  | poke v =>
    obtain rfl := Host.Outcome.next.inj ht
    split
    · exact h.setEx _
    · exact h
  | clear on =>
    obtain rfl := Host.Outcome.next.inj ht
    split
    · exact h.setEx _
    · exact h
  | returnWord p w => obtain rfl := Host.Outcome.next.inj ht; exact h
  | wordClockEdge => obtain rfl := Host.Outcome.next.inj ht; exact h
  | pollCountdownExpiry => obtain rfl := Host.Outcome.next.inj ht; exact h.setEx _
  | replyWrite => obtain rfl := Host.Outcome.next.inj ht; exact h.setEx _
  | releaseWrite v => obtain rfl := Host.Outcome.next.inj ht; exact h.setEx _
  | noticeWrite v => obtain rfl := Host.Outcome.next.inj ht; exact h.setEx _
  | noticeMaskWrite v => obtain rfl := Host.Outcome.next.inj ht; exact h.setEx _
  | blocks code => obtain rfl := Host.Outcome.next.inj ht; exact h.setEx _
  | enable on => obtain rfl := Host.Outcome.next.inj ht; exact h.setEx _
  | exchangeClear => obtain rfl := Host.Outcome.next.inj ht; exact h.setEx _
  | registerWriteIgnored reg v => obtain rfl := Host.Outcome.next.inj ht; exact h.setEx _
  | reportWrite => obtain rfl := Host.Outcome.next.inj ht; exact h.setEx _

/-- Settles O4: the law does not speak of the queue of commands, so a step keeps it as its command does. -/
theorem ownersStayLawful : Obligations.OwnersStayLawful := by
  unfold Obligations.OwnersStayLawful
  intro s t h ht
  unfold step at ht
  split at ht
  · obtain rfl := Host.Outcome.next.inj ht
    exact h
  · next i rest _ =>
    have hrest : ({ s with pending := rest } : State).OwnerLaw := h
    exact exec_ownerLaw hrest ht

end Sys2Proof.Machine
end

section
/-! PROOFS. The common checks of a request at its take (R174, R57 step 1). -/

namespace Sys2Proof.Machine

/-! ### The fields that the checks read -/

theorem decodeChannel_none {v : Byte} (h : 64 ≤ v.toNat) : decodeChannel v = none := dif_neg (Nat.not_lt.2 h)

theorem decodeChannel_some {v : Byte} (h : v.toNat < 64) : ∃ c, decodeChannel v = some c := ⟨_, dif_pos h⟩

theorem exists_feedIndex {n : Nat} (h : n < 4) : ∃ f, feedIndex f = n := by
  interval_cases n
  exacts [⟨.a, rfl⟩, ⟨.b, rfl⟩, ⟨.c, rfl⟩, ⟨.d, rfl⟩]

theorem decodeFeed_of_index {v : Byte} {f : Feed} (h : v.toNat = feedIndex f) : decodeFeed v = some f := by
  rw [decodeFeed, h]
  cases f <;> rfl

theorem index_of_decodeFeed {v : Byte} {f : Feed} (h : decodeFeed v = some f) : v.toNat = feedIndex f := by
  unfold decodeFeed at h
  split at h
  case h_5 => cases h
  all_goals
    next e =>
      cases h
      exact e

theorem decodeFeed_some {v : Byte} (h : v.toNat < 4) : ∃ f, decodeFeed v = some f := by
  obtain ⟨f, hf⟩ := exists_feedIndex h
  exact ⟨f, decodeFeed_of_index hf.symm⟩

theorem decodeFeed_none {v : Byte} (h : 4 ≤ v.toNat) : decodeFeed v = none := by
  unfold decodeFeed
  split
  case h_5 => rfl
  all_goals next e => omega

/-- A source byte of 1 to 4 is the console of the feed whose index is one less. -/
theorem decodeSource_of_index {w : Byte} {f : Feed} (h : w.toNat = feedIndex f + 1) : decodeSource w = some (.feed f) := by
  rw [decodeSource, h]
  cases f <;> rfl

theorem decodeSource_none {v : Byte} (h : v.toNat = 0 ∨ 5 < v.toNat) : decodeSource v = none := by
  unfold decodeSource
  split
  case h_6 => rfl
  all_goals next e => omega

/-- A feed's console may not act on another feed (R57 step 1). -/
theorem sourceAllows_other {v w : Byte} {f : Feed} (hf : decodeFeed v = some f) (h1 : 1 ≤ w.toNat) (h4 : w.toNat ≤ 4)
    (hne : w.toNat ≠ v.toNat + 1) : ∃ src, decodeSource w = some src ∧ sourceAllows src f = false := by
  obtain ⟨g, hg⟩ := exists_feedIndex (n := w.toNat - 1) (by omega)
  refine ⟨.feed g, decodeSource_of_index (by omega), beq_false_of_ne ?_⟩
  rintro rfl
  have := index_of_decodeFeed hf
  omega

/-! ### The refusals -/

section refusals
variable {s : State} {h : ReqHead} {kind : Byte}

/-- The checks of a kind in their order, by which of the channel and the feed it uses: what refuses its record. -/
def RefusesInOrder (i : Instr) (s : State) (h : ReqHead) (kind : Byte) (usesChannel usesFeed : Bool) : Prop :=
  (usesChannel = true → 64 ≤ h.channel.toNat → Served i s s h kind .badChannel none) ∧
  ((usesChannel = true → h.channel.toNat < 64) →
    (usesFeed = true → 4 ≤ h.feed.toNat → Served i s s h kind .badFeed none) ∧
    ((usesFeed = true → h.feed.toNat < 4) →
      (h.source.toNat = 0 ∨ 5 < h.source.toNat → Served i s s h kind .badSource none) ∧
      (usesFeed = true → 1 ≤ h.source.toNat → h.source.toNat ≤ 4 → h.source.toNat ≠ h.feed.toNat + 1 →
        Served i s s h kind .badSource none)))

/-- A refusal with no reply leaves the state as it is, but for the record. -/
theorem served_of_refusal (hr : s.Ready h) {i : Instr} {args : List Byte} {serve : State → TakeHead → State} {r : Result}
    (hi : exec i s = s.request h kind args serve) (ha : args.length ≤ 16)
    (hs : ∀ u, serve u (takeHead h kind) = u.finish (takeHead h kind) r none) : Served i s s h kind r none :=
  served_of_finish hr hi ha nofun hr.takeReady (hs _)

section orders
variable {i : Instr} {args : List Byte} {serve : State → TakeHead → State}

theorem refusesInOrder_withChan (hr : s.Ready h) (hi : exec i s = s.request h kind args serve) (ha : args.length ≤ 16)
    {k : State → ChanId → Source → State} (hs : ∀ u, serve u (takeHead h kind) = u.withChan (takeHead h kind) (k u)) :
    RefusesInOrder i s h kind true false := by
  refine ⟨fun _ hc => served_of_refusal hr hi ha fun u => ?_, fun hc => ⟨nofun, fun _ => ⟨fun hv => ?_, nofun⟩⟩⟩
  · rw [hs, State.withChan, takeHead, decodeChannel_none hc]
  · obtain ⟨c, hc⟩ := decodeChannel_some (hc rfl)
    exact served_of_refusal hr hi ha fun u => by rw [hs, State.withChan, takeHead, hc, decodeSource_none hv]

theorem refusesInOrder_withXp (hr : s.Ready h) (hi : exec i s = s.request h kind args serve) (ha : args.length ≤ 16)
    {k : State → ChanId → Feed → State} (hs : ∀ u, serve u (takeHead h kind) = u.withXp (takeHead h kind) (k u)) :
    RefusesInOrder i s h kind true true := by
  refine ⟨fun _ hc => served_of_refusal hr hi ha fun u => ?_, fun hc => ?_⟩
  · rw [hs, State.withXp, takeHead, decodeChannel_none hc]
  obtain ⟨c, hc⟩ := decodeChannel_some (hc rfl)
  refine ⟨fun _ hf => served_of_refusal hr hi ha fun u => ?_, fun hf => ?_⟩
  · rw [hs, State.withXp, takeHead, hc, decodeFeed_none hf]
  obtain ⟨f, hf⟩ := decodeFeed_some (hf rfl)
  refine ⟨fun hv => served_of_refusal hr hi ha fun u => ?_, fun _ h1 h4 hne => ?_⟩
  · rw [hs, State.withXp, takeHead, hc, hf, decodeSource_none hv]
  · obtain ⟨src, hsrc, hother⟩ := sourceAllows_other hf h1 h4 hne
    refine served_of_refusal hr hi ha fun u => ?_
    rw [hs, State.withXp, takeHead, hc, hf, hsrc]
    exact if_neg (by rw [hother]; decide)

theorem refusesInOrder_withFeed (hr : s.Ready h) (hi : exec i s = s.request h kind args serve) (ha : args.length ≤ 16)
    {k : State → Feed → State} (hs : ∀ u, serve u (takeHead h kind) = u.withFeed (takeHead h kind) (k u)) :
    RefusesInOrder i s h kind false true := by
  refine ⟨nofun, fun _ => ⟨fun _ hf => served_of_refusal hr hi ha fun u => ?_, fun hf => ?_⟩⟩
  · rw [hs, State.withFeed, takeHead, decodeFeed_none hf]
  obtain ⟨f, hf⟩ := decodeFeed_some (hf rfl)
  refine ⟨fun hv => served_of_refusal hr hi ha fun u => ?_, fun _ h1 h4 hne => ?_⟩
  · rw [hs, State.withFeed, takeHead, hf, decodeSource_none hv]
  · obtain ⟨src, hsrc, hother⟩ := sourceAllows_other hf h1 h4 hne
    refine served_of_refusal hr hi ha fun u => ?_
    rw [hs, State.withFeed, takeHead, hf, hsrc]
    exact if_neg (by rw [hother]; decide)

theorem refusesInOrder_withSource (hr : s.Ready h) (hi : exec i s = s.request h kind args serve) (ha : args.length ≤ 16)
    {k : State → State} (hs : ∀ u, serve u (takeHead h kind) = u.withSource (takeHead h kind) (k u)) :
    RefusesInOrder i s h kind false false :=
  ⟨nofun, fun _ => ⟨nofun, fun _ => ⟨fun hv => served_of_refusal hr hi ha fun u => by
    rw [hs, State.withSource, takeHead, decodeSource_none hv], nofun⟩⟩⟩

end orders

/-- A kind outside 1 to 17 is refused before anything else is read (R174). -/
theorem served_badKind (hr : s.Ready h) (hk : kind = 0#8 ∨ 17 < kind.toNat) :
    Served (.badKind h kind) s s h kind .badKind none := by
  refine served_of_refusal hr (args := []) (serve := fun s t =>
    if kindKnown kind then s.serveKind t else s.finish t .badKind none) rfl (Nat.zero_le _) fun u => if_neg ?_
  simp only [kindKnown, Bool.and_eq_true, decide_eq_true_eq]
  rcases hk with rfl | hk
  · decide
  · omega

end refusals

/-- Settles O45: each kind's serve is its checks followed by what it does, so the four forms of the checks refuse it. -/
theorem commonChecksRefuse : Obligations.CommonChecksRefuse := by
  refine ⟨fun s h b1 b2 n1 n2 n3 n4 w m hr => ⟨fun k hk => served_badKind hr hk, ?_⟩, rfl⟩
  change ∀ p : Instr × Byte × Bool × Bool, p ∈ _ → RefusesInOrder p.1 s h p.2.1 p.2.2.1 p.2.2.2
  simp only [List.forall_mem_cons, List.not_mem_nil, false_implies, implies_true, and_true]
  exact ⟨refusesInOrder_withChan hr (serve := fun s t => s.serveSetAnalog t n1) rfl (Nat.le_of_ble_eq_true rfl) fun _ => rfl,
    refusesInOrder_withChan hr (serve := fun s t => s.serveSetPad t b1) rfl (Nat.le_of_ble_eq_true rfl) fun _ => rfl,
    refusesInOrder_withChan hr (serve := fun s t => s.serveSetPhantom t b1) rfl (Nat.le_of_ble_eq_true rfl) fun _ => rfl,
    refusesInOrder_withChan hr (serve := fun s t => s.serveReadChannel t) rfl (Nat.le_of_ble_eq_true rfl) fun _ => rfl,
    refusesInOrder_withChan hr (serve := fun s t => s.serveResync t) rfl (Nat.le_of_ble_eq_true rfl) fun _ => rfl,
    refusesInOrder_withChan hr (serve := fun s t => s.serveSetGuard t b1 n1 n2 n3 n4) rfl
      (Nat.le_of_ble_eq_true rfl) fun _ => rfl,
    refusesInOrder_withXp hr (serve := fun s t => s.serveSetTrim t n1) rfl (Nat.le_of_ble_eq_true rfl) fun _ => rfl,
    refusesInOrder_withXp hr (serve := fun s t => s.serveSetMode t b1) rfl (Nat.le_of_ble_eq_true rfl) fun _ => rfl,
    refusesInOrder_withXp hr (serve := fun s t => s.serveSetFlags t b1 b2) rfl (Nat.le_of_ble_eq_true rfl) fun _ => rfl,
    refusesInOrder_withXp hr (serve := fun s t => s.serveClaim t) rfl (Nat.le_of_ble_eq_true rfl) fun _ => rfl,
    refusesInOrder_withXp hr (serve := fun s t => s.serveRelease t) rfl (Nat.le_of_ble_eq_true rfl) fun _ => rfl,
    refusesInOrder_withFeed hr (serve := fun s t => s.serveSetFeed t b1 b2) rfl (Nat.le_of_ble_eq_true rfl) fun _ => rfl,
    refusesInOrder_withFeed hr (serve := fun s t => s.serveLoadSlotmap t w) rfl (Nat.le_of_ble_eq_true rfl) fun _ => rfl,
    refusesInOrder_withSource hr (serve := fun s t => s.serveLoadShadow t w b1 b2) rfl (Nat.le_of_ble_eq_true rfl) fun _ => rfl,
    refusesInOrder_withSource hr (serve := fun s t => s.serveSwap t m) rfl (Nat.le_of_ble_eq_true rfl) fun _ => rfl,
    refusesInOrder_withSource hr (serve := fun s t => s.serveSetClock t b1) rfl (Nat.le_of_ble_eq_true rfl) fun _ => rfl,
    refusesInOrder_withSource hr (serve := fun s t => s.serveSetExchange t b1 n1 n2 n3 b2) rfl
      (Nat.le_of_ble_eq_true rfl) fun _ => rfl⟩

end Sys2Proof.Machine
end

section
/-! PROOFS. The requests on the preamp and the guard at their take: what authority gives, what a SET_ANALOG without it
becomes, and the refusals (R54, R55, R93, R94, R95, R105). -/

namespace Sys2Proof.Machine

/-! ### Takes that hand events over -/

/-- Memory does not enter what a channel's new record puts in force. -/
theorem State.putChan_withMem (s : State) (c : ChanId) (r : Chan × List Event) (m : List Host.Cell) :
    (s.setEx { s.ex with mem := m }).putChan c r =
      (s.putChan c r).setEx { (s.putChan c r).ex with mem := m } := by
  unfold State.putChan
  rw [show (s.setEx { s.ex with mem := m }).ex = { s.ex with mem := m } from rfl, Exchange.joinAll_withMem]
  rfl

theorem State.Ready.putChan {s : State} {h : ReqHead} (hr : s.Ready h) (c : ChanId) (r : Chan × List Event) :
    s.ex.TakeReady (s.putChan c r).ex := hr.takeReady.joinAll _ _

/-! ### A trim moved by a request -/

/-- A trim moves the raw gain by as much, in every mode (R6). -/
theorem Xp.raw_withTrim (x : Xp) (trim lapp : Int) :
    ({ x with trim := trim } : Xp).raw lapp = x.raw lapp + trim - x.trim := by
  unfold Xp.raw
  dsimp only
  split
  · omega
  · omega
  · omega

/-- The record after a trim, with what moves its flag (R69). -/
theorem Xp.setTrim_eq (x : Xp) (trim lapp : Int) : x.setTrim trim lapp = { x with
    trim := trim, continuity := (x.setTrim trim lapp).continuity
    cause := if x.cause = .scene ∨ outOfRange (x.raw lapp) = outOfRange (x.raw lapp + trim - x.trim) then x.cause
      else .request } := by
  rw [← x.raw_withTrim trim lapp]
  rfl

theorem State.setXp_self (s : State) (c : ChanId) (f : Feed) : s.setXp c f (s.xp c f) = s := by
  have hset : s.xps[c].set f (s.xp c f) = s.xps[c] := by
    rw [State.xp]
    cases f <;> rfl
  rw [State.setXp, hset]
  exact congrArg (fun v => ({ s with xps := v } : State)) (upd_self s.xps c)

section trims
variable {s : State} {c : ChanId} {f : Feed} {trim : Int} (t : TakeHead) (r : Result) (reply : XpReply)

/-- A trim that is in force already replies at once (R58). -/
theorem State.trim_finish (h : trim = (s.xp c f).trim) :
    (s.setXp c f (if trim = (s.xp c f).trim then s.xp c f else (s.xp c f).setTrim trim (s.chan c).level)).holdOrFinish t
      (trim != (s.xp c f).trim) r reply = s.finish t r (some (s.xpReply reply)) := by
  rw [if_pos h, State.setXp_self, State.holdOrFinish, if_neg (by rw [h, bne_self_eq_false]; decide)]

/-- A trim that changes waits for its first new sample (R58). -/
theorem State.trim_hold (h : trim ≠ (s.xp c f).trim) :
    (s.setXp c f (if trim = (s.xp c f).trim then s.xp c f else (s.xp c f).setTrim trim (s.chan c).level)).holdOrFinish t
      (trim != (s.xp c f).trim) r reply =
      (s.setXp c f ((s.xp c f).setTrim trim (s.chan c).level)).hold t r reply := by
  rw [if_neg h, State.holdOrFinish, if_pos (bne_iff_ne.2 h)]

end trims

/-! ### Authority and the grid of analog codes -/

theorem authorised_of {src : Source} {owner : Option Feed}
    (h : (src = .panel ∧ owner = none) ∨ ∃ f, src = .feed f ∧ owner = some f) : authorised src owner = true := by
  rcases h with ⟨rfl, rfl⟩ | ⟨f, rfl, rfl⟩
  · rfl
  · exact beq_self_eq_true f

theorem not_authorised_of {src : Source} {owner : Option Feed}
    (h : (src = .panel ∧ owner ≠ none) ∨ ∃ f, src = .feed f ∧ owner ≠ some f) : ¬ authorised src owner = true := by
  rcases h with ⟨rfl, ho⟩ | ⟨f, rfl, ho⟩
  · cases owner with
    | none => exact absurd rfl ho
    | some g => exact Bool.false_ne_true
  · cases owner with
    | none => exact Bool.false_ne_true
    | some g =>
      intro he
      exact ho (congrArg some (eq_of_beq he).symm)

theorem not_phantomAuthorised_of {src : Source} {owner : Option Feed} {f : Feed} (hs : src = .feed f)
    (ho : owner ≠ some f) : phantomAuthorised src owner = false := by
  subst hs
  exact beq_false_of_ne ho

/-- The nearest multiple of 6 up to 240, a remainder of 3 going down (R93). -/
theorem roundCode_eq {n a : Nat} (ha : a % 6 = 0)
    (h : (n ≤ 240 ∧ a ≤ n + 2 ∧ n ≤ a + 3) ∨ (240 < n ∧ a = 240)) : roundCode n = a := by
  unfold roundCode
  split
  · omega
  · split
    · omega
    · omega

theorem okOr_bne {α : Type} [DecidableEq α] (a b : α) : okOr (a != b) = if a = b then .ok else .clamped := by
  by_cases h : a = b
  · rw [h, bne_self_eq_false, if_pos rfl]; rfl
  · rw [bne_iff_ne.2 h, if_neg h]; rfl

/-! ### The takes -/

section takes
variable {s : State} {h : ReqHead} {c : ChanId} {src : Source}

/-- SET_ANALOG with authority (R93). -/
theorem served_setAnalog (hr : s.Ready h) (hc : decodeChannel h.channel = some c) (hs : decodeSource h.source = some src)
    {code : Half} {a : Nat} (hauth : authorised src (s.chan c).owner = true) (ha : roundCode code.toNat = a) {u : State}
    (hu : u = s.putChan c ((s.chan c).requestTarget c (some h.tag) { (s.chan c).tgt with analog := (a : Int) })) :
    Served (.setAnalog h code) s u h 1#8 (if a = code.toNat then .ok else .clamped) (some (u.preampReply c)) := by
  subst ha hu
  rw [← okOr_bne]
  refine served_of_finish hr (serve := fun s t => s.serveSetAnalog t code) (args := halfBytes code) rfl
    (Nat.le_of_ble_eq_true rfl) (by rintro bs ⟨⟩; exact Nat.le_of_ble_eq_true rfl) (hr.putChan _ _) ?_
  refine (State.withChan_of_decoded _ 1#8 _ hc hs).trans ((if_pos hauth).trans ?_)
  rw [← State.putChan_withMem]
  rfl

/-- SET_PAD with authority (R94). -/
theorem served_setPad (hr : s.Ready h) (hc : decodeChannel h.channel = some c) (hs : decodeSource h.source = some src)
    {v : Byte} (hauth : authorised src (s.chan c).owner = true) (hv : v.toNat ≤ 1) {u : State}
    (hu : u = s.putChan c ((s.chan c).requestTarget c (some h.tag) { (s.chan c).tgt with padIn := v == 1#8 })) :
    Served (.setPad h v) s u h 2#8 .ok (some (u.preampReply c)) := by
  subst hu
  refine served_of_finish hr (serve := fun s t => s.serveSetPad t v) (args := [v]) rfl
    (Nat.le_of_ble_eq_true rfl) (by rintro bs ⟨⟩; exact Nat.le_of_ble_eq_true rfl) (hr.putChan _ _) ?_
  refine (State.withChan_of_decoded _ 2#8 _ hc hs).trans ((if_neg (Nat.not_lt.2 hv)).trans ((if_pos hauth).trans ?_))
  rw [← State.putChan_withMem]
  rfl

/-- A SET_ANALOG of a feed without authority is served as that feed's trim (R55). -/
theorem serveSetAnalog_asTrim {f : Feed} (u : State) {code : Half} (hc : decodeChannel h.channel = some c)
    (hs : decodeSource h.source = some (.feed f)) (ho : (u.chan c).owner ≠ some f) :
    u.serveSetAnalog (takeHead h 1#8) code = u.serveAsTrim (takeHead h 1#8) c f code.toNat :=
  (State.withChan_of_decoded _ 1#8 _ hc hs).trans (if_neg (not_authorised_of (.inr ⟨f, rfl, ho⟩)))

end takes

/-- Settles O47: with authority the take is the request of a target, on the code that is brought onto the grid. -/
theorem authorisedRequestsRetarget : Obligations.AuthorisedRequestsRetarget := by
  intro s h c src hr hc hs hauth
  have hauth := authorised_of hauth
  exact ⟨fun code a ha hcode u hu => served_setAnalog hr hc hs hauth (roundCode_eq ha hcode) hu,
    fun v hv u hu => served_setPad hr hc hs hauth hv hu⟩

/-- Settles O48: the take is a SET_ANALOG served as trim, which replies at once or waits. -/
theorem unownedAnalogBecomesTrim : Obligations.UnownedAnalogBecomesTrim := by
  intro s h c f code a wanted trim raw x hr hc hs ho ha hcode hx hwanted htrim hraw r hreply
  have hround := roundCode_eq ha hcode
  subst hx hraw hround
  have htrim : trim = clampGain wanted := htrim
  subst hwanted htrim
  have hserve := serveSetAnalog_asTrim (s.setEx (s.ex.offer h 1#8 (halfBytes code))) (code := code) hc hs ho
  subst hreply
  refine ⟨fun hsame => ?_, fun hmoved => ⟨_, (s.xp c f).setTrim_eq _ _, ?_⟩⟩
  · refine served_of_finish hr (serve := fun s t => s.serveSetAnalog t code) (args := halfBytes code) rfl
      (Nat.le_of_ble_eq_true rfl) (by rintro bs ⟨⟩; exact Nat.le_of_ble_eq_true rfl) hr.takeReady (hserve.trans ?_)
    exact State.trim_finish _ _ _ hsame
  · refine waits_of_hold hr (serve := fun s t => s.serveSetAnalog t code) (args := halfBytes code) rfl
      (Nat.le_of_ble_eq_true rfl) hr.takeReady (hserve.trans ?_)
    exact State.trim_hold _ _ _ hmoved

/-! ### The refusals -/

section refusals
variable {s : State} {h : ReqHead} {c : ChanId} {src : Source}

/-- A refusal writes its reply and leaves the state as it is, but for the record. -/
theorem served_unchanged (hr : s.Ready h) {i : Instr} {kind : Byte} {args : List Byte} {serve : State → TakeHead → State}
    {r : Result} {bs : List Byte} (hi : exec i s = s.request h kind args serve) (ha : args.length ≤ 16)
    (hl : bs.length ≤ 32)
    (hs : serve (s.setEx (s.ex.offer h kind args)) (takeHead h kind) =
      (s.setEx (s.ex.offer h kind args)).finish (takeHead h kind) r (some bs)) : Served i s s h kind r (some bs) :=
  served_of_finish hr hi ha (fun _ e => Option.some.inj e ▸ hl) hr.takeReady hs

/-- The value of a SET_PAD is 0 or 1 (R94). -/
theorem served_setPad_badArg (hr : s.Ready h) (hc : decodeChannel h.channel = some c) (hs : decodeSource h.source = some src)
    {v : Byte} (hv : 1 < v.toNat) : Served (.setPad h v) s s h 2#8 .badArg (some (s.preampReply c)) :=
  served_unchanged hr (serve := fun s t => s.serveSetPad t v) (args := [v]) rfl (Nat.le_of_ble_eq_true rfl)
    (Nat.le_of_ble_eq_true rfl) ((State.withChan_of_decoded _ 2#8 _ hc hs).trans (if_pos hv))

/-- The value of a SET_PHANTOM is 0 or 1 (R95). -/
theorem served_setPhantom_badArg (hr : s.Ready h) (hc : decodeChannel h.channel = some c)
    (hs : decodeSource h.source = some src) {v : Byte} (hv : 1 < v.toNat) :
    Served (.setPhantom h v) s s h 3#8 .badArg (some (s.preampReply c)) :=
  served_unchanged hr (serve := fun s t => s.serveSetPhantom t v) (args := [v]) rfl (Nat.le_of_ble_eq_true rfl)
    (Nat.le_of_ble_eq_true rfl) ((State.withChan_of_decoded _ 3#8 _ hc hs).trans (if_pos hv))

/-- The enable of a SET_GUARD is 0 or 1 (R105). -/
theorem served_setGuard_badArg (hr : s.Ready h) (hc : decodeChannel h.channel = some c)
    (hs : decodeSource h.source = some src) {v : Byte} (hv : 1 < v.toNat) (n1 n2 n3 n4 : Half) :
    Served (.setGuard h v n1 n2 n3 n4) s s h 6#8 .badArg (some (s.guardReply c false)) :=
  served_unchanged hr (serve := fun s t => s.serveSetGuard t v n1 n2 n3 n4)
    (args := [v, 0#8] ++ halfBytes n1 ++ halfBytes n2 ++ halfBytes n3 ++ halfBytes n4) rfl (Nat.le_of_ble_eq_true rfl)
    (Nat.le_of_ble_eq_true rfl) ((State.withChan_of_decoded _ 6#8 _ hc hs).trans (if_pos hv))

/-- The panel has no authority over the analog code of an owned channel (R54). -/
theorem served_setAnalog_owned (hr : s.Ready h) (hc : decodeChannel h.channel = some c)
    (hs : decodeSource h.source = some .panel) (ho : (s.chan c).owner ≠ none) (code : Half) :
    Served (.setAnalog h code) s s h 1#8 .owned (some (s.preampReply c)) :=
  served_unchanged hr (serve := fun s t => s.serveSetAnalog t code) (args := halfBytes code) rfl (Nat.le_of_ble_eq_true rfl)
    (Nat.le_of_ble_eq_true rfl) ((State.withChan_of_decoded _ 1#8 _ hc hs).trans
      (if_neg (not_authorised_of (.inl ⟨rfl, ho⟩))))

/-- SET_PAD without authority (R54). -/
theorem served_setPad_owned (hr : s.Ready h) (hc : decodeChannel h.channel = some c) (hs : decodeSource h.source = some src)
    {v : Byte} (hv : v.toNat ≤ 1) (hauth : ¬ authorised src (s.chan c).owner = true) :
    Served (.setPad h v) s s h 2#8 .owned (some (s.preampReply c)) :=
  served_unchanged hr (serve := fun s t => s.serveSetPad t v) (args := [v]) rfl (Nat.le_of_ble_eq_true rfl)
    (Nat.le_of_ble_eq_true rfl) ((State.withChan_of_decoded _ 2#8 _ hc hs).trans
      ((if_neg (Nat.not_lt.2 hv)).trans (if_neg hauth)))

/-- SET_PHANTOM without authority (R54). -/
theorem served_setPhantom_owned (hr : s.Ready h) (hc : decodeChannel h.channel = some c)
    (hs : decodeSource h.source = some src) {v : Byte} (hv : v.toNat ≤ 1)
    (hauth : phantomAuthorised src (s.chan c).owner = false) :
    Served (.setPhantom h v) s s h 3#8 .owned (some (s.preampReply c)) :=
  served_unchanged hr (serve := fun s t => s.serveSetPhantom t v) (args := [v]) rfl (Nat.le_of_ble_eq_true rfl)
    (Nat.le_of_ble_eq_true rfl) ((State.withChan_of_decoded _ 3#8 _ hc hs).trans
      ((if_neg (Nat.not_lt.2 hv)).trans (if_pos hauth)))

/-- SET_GUARD without authority (R54, R105). -/
theorem served_setGuard_owned (hr : s.Ready h) (hc : decodeChannel h.channel = some c)
    (hs : decodeSource h.source = some src) {v : Byte} (hv : v.toNat ≤ 1)
    (hauth : phantomAuthorised src (s.chan c).owner = false) (n1 n2 n3 n4 : Half) :
    Served (.setGuard h v n1 n2 n3 n4) s s h 6#8 .owned (some (s.guardReply c false)) :=
  served_unchanged hr (serve := fun s t => s.serveSetGuard t v n1 n2 n3 n4)
    (args := [v, 0#8] ++ halfBytes n1 ++ halfBytes n2 ++ halfBytes n3 ++ halfBytes n4) rfl (Nat.le_of_ble_eq_true rfl)
    (Nat.le_of_ble_eq_true rfl) ((State.withChan_of_decoded _ 6#8 _ hc hs).trans
      ((if_neg (Nat.not_lt.2 hv)).trans (if_pos hauth)))

/-- Phantom on while the supply has failed (R95). -/
theorem served_setPhantom_faulted (hr : s.Ready h) (hc : decodeChannel h.channel = some c)
    (hs : decodeSource h.source = some src) (hauth : src = .panel ∨ ∃ f, src = .feed f ∧ (s.chan c).owner = some f)
    (hf : (s.chan c).phantom = .faulted) :
    Served (.setPhantom h 1#8) s s h 3#8 .faulted (some (s.preampReply c)) := by
  have hauth : ¬ phantomAuthorised src (s.chan c).owner = false := by rw [phantomAuthorised_of hauth]; decide
  exact served_unchanged hr (serve := fun s t => s.serveSetPhantom t 1#8) (args := [1#8]) rfl (Nat.le_of_ble_eq_true rfl)
    (Nat.le_of_ble_eq_true rfl) ((State.withChan_of_decoded _ 3#8 _ hc hs).trans
      ((if_neg (by decide)).trans ((if_neg hauth).trans (if_pos ⟨hf, rfl⟩))))

end refusals

/-- Settles O49: the checks of each request in their order, each before the next. -/
theorem preampRefusalsChangeNothing : Obligations.PreampRefusalsChangeNothing := by
  intro s h c src hr hc hs
  refine ⟨fun code hpanel ho => ?_, fun v hv => ⟨?_, ?_, ?_⟩, fun v hv => ⟨fun hno => ?_, fun f hf ho => ?_, ?_⟩⟩
  · subst hpanel
    exact served_setAnalog_owned hr hc hs ho code
  · exact served_setPad_badArg hr hc hs hv
  · exact served_setPhantom_badArg hr hc hs hv
  · exact served_setGuard_badArg hr hc hs hv
  · exact served_setPad_owned hr hc hs hv (not_authorised_of hno)
  · have hauth := not_phantomAuthorised_of hf ho
    exact ⟨served_setPhantom_owned hr hc hs hv hauth, served_setGuard_owned hr hc hs hv hauth⟩
  · rintro rfl hauth hfault
    exact served_setPhantom_faulted hr hc hs hauth hfault

end Sys2Proof.Machine
end

section
/-! PROOFS. The requests on a crosspoint at their take: trims and flags, modes, and the owner (R51, R52, R55 to R64). -/

namespace Sys2Proof.Machine

/-! ### The takes -/

/-- The common checks pass where the channel, the feed and the source are in their sets and the source may act (R174, R57). -/
theorem State.withXp_of_decoded (s : State) {h : ReqHead} {c : ChanId} {f : Feed} {src : Source} (kind : Byte)
    (k : ChanId → Feed → State) (hc : decodeChannel h.channel = some c) (hf : decodeFeed h.feed = some f)
    (hs : decodeSource h.source = some src) (ha : sourceAllows src f = true) :
    s.withXp (takeHead h kind) k = k c f := by
  rw [State.withXp, show decodeChannel (takeHead h kind).channel = some c from hc,
    show decodeFeed (takeHead h kind).feed = some f from hf, show decodeSource (takeHead h kind).source = some src from hs]
  exact if_pos ha

/-- A request that changes nothing replies at its take with the values that stand then (R58). -/
theorem served_standing {s : State} {h : ReqHead} (hr : s.Ready h) {i : Instr} {kind : Byte} {args : List Byte}
    {serve : State → TakeHead → State} {r : Result} {reply : XpReply} (hi : exec i s = s.request h kind args serve)
    (ha : args.length ≤ 16)
    (hs : serve (s.setEx (s.ex.offer h kind args)) (takeHead h kind) =
      (s.setEx (s.ex.offer h kind args)).finish (takeHead h kind) r (some (s.xpReply reply))) :
    Served i s s h kind r (some (s.xpReply reply)) := served_unchanged hr hi ha (Nat.le_of_ble_eq_true rfl) hs

section takes
variable {s : State} {h : ReqHead} {c : ChanId} {f : Feed} {src : Source} (hr : s.Ready h)
  (hc : decodeChannel h.channel = some c) (hf : decodeFeed h.feed = some f) (hs : decodeSource h.source = some src)
  (hallow : sourceAllows src f = true)
include hr hc hf hs hallow

/-! #### SET_TRIM (R63) -/

theorem served_setTrim_same {v : Half} (hsame : clampGain v.toInt = (s.xp c f).trim) :
    Served (.setTrim h v) s s h 7#8 (okOr (clampGain v.toInt != v.toInt)) (some (s.xpReply (plainReply c f))) := by
  refine served_standing hr (serve := fun s t => s.serveSetTrim t v) (args := halfBytes v) rfl (Nat.le_of_ble_eq_true rfl)
    ((State.withXp_of_decoded _ 7#8 _ hc hf hs hallow).trans ?_)
  exact State.trim_finish _ _ _ hsame

theorem waits_setTrim {v : Half} (hmoved : clampGain v.toInt ≠ (s.xp c f).trim) :
    Waits (.setTrim h v) s (s.setXp c f ((s.xp c f).setTrim (clampGain v.toInt) (s.chan c).level)) h 7#8
      (okOr (clampGain v.toInt != v.toInt)) (plainReply c f) := by
  refine waits_of_hold hr (serve := fun s t => s.serveSetTrim t v) (args := halfBytes v) rfl (Nat.le_of_ble_eq_true rfl)
    hr.takeReady ((State.withXp_of_decoded _ 7#8 _ hc hf hs hallow).trans ?_)
  exact State.trim_hold _ _ _ hmoved

/-! #### SET_FLAGS (R64) -/

/-- The crosspoint after SET_FLAGS (R64). -/
def Xp.withFlags (x : Xp) (mute invert : Byte) : Xp :=
  { x with mute := selectFlag mute x.mute, invert := selectFlag invert x.invert }

omit hr hc hf hs hallow in
/-- SET_FLAGS changes a crosspoint exactly where it changes one of the two flags. -/
theorem Xp.withFlags_eq_iff (x : Xp) (mute invert : Byte) : x.withFlags mute invert = x ↔
    ((x.withFlags mute invert).mute != x.mute || (x.withFlags mute invert).invert != x.invert) = false := by
  rw [Bool.or_eq_false_iff, bne_eq_false_iff_eq, bne_eq_false_iff_eq]
  refine ⟨fun h => ⟨congrArg Xp.mute h, congrArg Xp.invert h⟩, fun ⟨hmute, hinvert⟩ => ?_⟩
  calc x.withFlags mute invert
    _ = { x with mute := (x.withFlags mute invert).mute, invert := (x.withFlags mute invert).invert } := rfl
    _ = x := by rw [hmute, hinvert]

theorem served_setFlags_badArg {mute invert : Byte} (hv : 2 < mute.toNat ∨ 2 < invert.toNat) :
    Served (.setFlags h mute invert) s s h 9#8 .badArg none :=
  served_of_refusal hr (serve := fun s t => s.serveSetFlags t mute invert) (args := [mute, invert]) rfl
    (Nat.le_of_ble_eq_true rfl) fun _ => (State.withXp_of_decoded _ 9#8 _ hc hf hs hallow).trans (if_pos hv)

theorem served_setFlags_same {mute invert : Byte} (hv : ¬ (2 < mute.toNat ∨ 2 < invert.toNat))
    (hsame : (s.xp c f).withFlags mute invert = s.xp c f) :
    Served (.setFlags h mute invert) s s h 9#8 .ok (some (s.xpReply (plainReply c f))) := by
  have hchange := Bool.eq_false_iff.1 (((s.xp c f).withFlags_eq_iff mute invert).1 hsame)
  refine served_standing hr (serve := fun s t => s.serveSetFlags t mute invert) (args := [mute, invert]) rfl
    (Nat.le_of_ble_eq_true rfl) ((State.withXp_of_decoded _ 9#8 _ hc hf hs hallow).trans ((if_neg hv).trans ?_))
  have hself (u : State) (hu : u.xp c f = s.xp c f) : u.setXp c f ((u.xp c f).withFlags mute invert) = u := by
    rw [hu, hsame, ← hu, u.setXp_self]
  refine (if_neg hchange).trans ?_
  exact congrArg (fun u : State => u.finish (takeHead h 9#8) .ok (some (u.xpReply (plainReply c f)))) (hself _ rfl)

theorem waits_setFlags {mute invert : Byte} (hv : ¬ (2 < mute.toNat ∨ 2 < invert.toNat))
    (hmoved : (s.xp c f).withFlags mute invert ≠ s.xp c f) :
    Waits (.setFlags h mute invert) s (s.setXp c f ((s.xp c f).withFlags mute invert)) h 9#8 .ok (plainReply c f) := by
  have hchange := Bool.eq_true_of_not_eq_false (mt ((s.xp c f).withFlags_eq_iff mute invert).2 hmoved)
  refine waits_of_hold hr (serve := fun s t => s.serveSetFlags t mute invert) (args := [mute, invert]) rfl
    (Nat.le_of_ble_eq_true rfl) hr.takeReady ((State.withXp_of_decoded _ 9#8 _ hc hf hs hallow).trans
      ((if_neg hv).trans ((if_pos hchange).trans rfl)))

end takes

/-- The layout of a crosspoint reply, its six flags in one byte (R58, R180). -/
theorem State.xpReply_layout (s : State) (r : XpReply) : s.xpReply r =
    [ownerByte (s.chan r.c).owner, ownerByte r.former, modeByte (s.xp r.c r.f).mode,
      flags [(s.xp r.c r.f).mute, (s.xp r.c r.f).invert, outOfRange ((s.xp r.c r.f).raw (s.chan r.c).level),
        hasRef (s.xp r.c r.f).mode, r.codeAdjusted, r.trimClamped]] ++
      little 2 (s.chan r.c).level ++ little 2 (s.xp r.c r.f).trim ++ little 2 (refOf (s.xp r.c r.f).mode) ++
      little 2 ((s.xp r.c r.f).raw (s.chan r.c).level) ++ little 2 ((s.xp r.c r.f).gain (s.chan r.c).level) := by
  rw [State.xpReply, bitsByte_flags]
  simp only [s16_little]
  congr 6

/-- Settles O52: both requests change a crosspoint or leave it, and the reply is written out field by field. -/
theorem setTrimAndFlags : Obligations.SetTrimAndFlags := by
  refine ⟨fun s h c f src x raw r hr hc hf hs hallow hx hraw hreply => ?_, ?_⟩
  · subst hx hraw hreply
    refine ⟨fun v trim res htrim hres => ?_, fun mute invert => ⟨?_, fun hm hi y hy => ?_⟩⟩
    · have htrim : trim = clampGain v.toInt := htrim
      have hres : res = okOr (clampGain v.toInt != v.toInt) := by rw [hres, htrim, okOr_bne]
      rw [hres, htrim]
      exact ⟨fun hsame => served_setTrim_same hr hc hf hs hallow hsame,
        fun hmoved => ⟨_, (s.xp c f).setTrim_eq _ _, waits_setTrim hr hc hf hs hallow hmoved⟩⟩
    · exact fun hv => served_setFlags_badArg hr hc hf hs hallow hv
    · have hv : ¬ (2 < mute.toNat ∨ 2 < invert.toNat) := by omega
      have hy : y = (s.xp c f).withFlags mute invert := hy
      subst hy
      exact ⟨served_setFlags_same hr hc hf hs hallow hv, waits_setFlags hr hc hf hs hallow hv⟩
  · intro s r x lapp ref raw mode tracks hx hlapp hraw hmode
    subst hx hlapp hraw
    rw [State.xpReply_layout]
    rcases hmode with ⟨hm, rfl, rfl, rfl⟩ | ⟨hm, rfl, rfl⟩ | ⟨hm, rfl, rfl, rfl⟩
    · rw [hm]; rfl
    · rw [hm]; rfl
    · rw [hm]; rfl

/-! ### Modes (R51, R52) -/

theorem outOfRange_iff {raw : Int} : outOfRange raw = true ↔ raw < -240 ∨ 96 < raw := by simp [outOfRange]

section modes
variable {x : Xp} {mode : XpMode} {lapp ref : Int}

/-- A crosspoint outside TRACK takes the applied level as its reference (R51). -/
theorem Xp.enterTrack_of_not_track (h : ∀ ref, x.mode ≠ .track ref) :
    x.enterTrack lapp = { x with mode := .track lapp, continuity := .entered } := by
  unfold Xp.enterTrack
  split
  · next r hm => exact absurd hm (h r)
  · rfl
  · rfl

theorem Xp.foldOwed_of_track (hm : x.mode = .track ref) (hc : x.continuity ≠ .entered) : x.foldOwed = some (x.trim, ref) := by
  rw [Xp.foldOwed, hm]
  exact if_neg hc

/-- Nothing is folded outside TRACK, nor where no sample has used the TRACK yet (R52). -/
theorem Xp.foldOwed_of_not (h : (∀ ref, x.mode ≠ .track ref) ∨ x.continuity = .entered) : x.foldOwed = none := by
  unfold Xp.foldOwed
  split
  · next r hm => exact if_pos (h.resolve_left fun hn => hn r hm)
  · rfl
  · rfl

/-- A fold comes from a crosspoint in TRACK, with its trim and its reference. -/
theorem Xp.track_of_foldOwed {p : Int × Int} (h : x.foldOwed = some p) : x.mode = .track p.2 ∧ x.trim = p.1 := by
  unfold Xp.foldOwed at h
  split at h
  · next r hm =>
    split at h
    · cases h
    · cases h
      exact ⟨hm, rfl⟩
  · cases h
  · cases h

/-- A crosspoint that owes no fold keeps its trim (R52). -/
theorem Xp.leaveTrack_of_none (h : x.foldOwed = none) : x.leaveTrack mode lapp =
    { x with mode := mode, continuity := if x.continuity = .entered then .settled else x.continuity } := by
  rw [Xp.leaveTrack, h]

/-- The fold on leaving TRACK, and what moves its flag: the fold is inside the gain range (R52, R69). -/
theorem Xp.leaveTrack_of_fold {trim raw : Int} (h : x.foldOwed = some (trim, ref)) (hraw : raw = trim + ref - lapp) :
    x.leaveTrack mode lapp = { x with
      mode := mode, trim := max (-240) (min 96 raw), continuity := .folded trim ref
      cause := if x.cause ≠ .scene ∧ (raw < -240 ∨ 96 < raw) then .request else x.cause } := by
  obtain ⟨hmode, htrim⟩ := Xp.track_of_foldOwed h
  have hbefore : x.raw lapp = raw := by rw [Xp.raw_of_track hmode, htrim, hraw]
  have hafter : outOfRange (clampGain raw) = false := outOfRange_eq_false.2 (clampGain_legal _)
  have hcause : x.causeOf (x.raw lapp) (clampGain raw) .request =
      if x.cause ≠ .scene ∧ (raw < -240 ∨ 96 < raw) then .request else x.cause := by
    rw [Xp.causeOf, hbefore, hafter]
    simp only [← outOfRange_iff]
    by_cases hs : x.cause = .scene
    · rw [if_pos (.inl hs), if_neg fun hn => hn.1 hs]
    · cases ho : outOfRange raw with
      | false => rw [if_pos (.inr rfl), if_neg fun hn => Bool.false_ne_true hn.2]
      | true => rw [if_neg fun hn => hn.elim hs Bool.true_eq_false.mp, if_pos ⟨hs, rfl⟩]
  rw [Xp.leaveTrack, h]
  dsimp only
  rw [show foldRaw (trim, ref) lapp = raw from hraw.symm, hcause]
  rfl

end modes

section takes
variable {s : State} {h : ReqHead} {c : ChanId} {f : Feed} {src : Source} (hr : s.Ready h)
  (hc : decodeChannel h.channel = some c) (hf : decodeFeed h.feed = some f) (hs : decodeSource h.source = some src)
  (hallow : sourceAllows src f = true)
include hr hc hf hs hallow

/-! #### SET_MODE (R59) -/

theorem served_setMode_badArg {v : Byte} (hv : 1 < v.toNat) : Served (.setMode h v) s s h 8#8 .badArg none :=
  served_of_refusal hr (serve := fun s t => s.serveSetMode t v) (args := [v]) rfl (Nat.le_of_ble_eq_true rfl)
    fun _ => (State.withXp_of_decoded _ 8#8 _ hc hf hs hallow).trans (if_pos hv)

omit hr in
theorem serveSetMode_owner (u : State) {v : Byte} (hv : v.toNat ≤ 1) (hm : (u.xp c f).mode = .owner) :
    u.serveSetMode (takeHead h 8#8) v = u.finish (takeHead h 8#8) .isOwner (some (u.xpReply (plainReply c f))) := by
  refine (State.withXp_of_decoded _ 8#8 _ hc hf hs hallow).trans ((if_neg (Nat.not_lt.2 hv)).trans ?_)
  rw [hm]

omit hr in
theorem serveSetMode_follow (u : State) {v : Byte} (hv : v.toNat ≤ 1) (hm : (u.xp c f).mode = .follow) :
    u.serveSetMode (takeHead h 8#8) v =
      if v = 1#8 then (u.enterTrack c f).hold (takeHead h 8#8) .ok (plainReply c f)
      else u.finish (takeHead h 8#8) .ok (some (u.xpReply (plainReply c f))) := by
  refine (State.withXp_of_decoded _ 8#8 _ hc hf hs hallow).trans ((if_neg (Nat.not_lt.2 hv)).trans ?_)
  rw [hm]

omit hr in
theorem serveSetMode_track (u : State) {v : Byte} {ref : Int} (hv : v.toNat ≤ 1) (hm : (u.xp c f).mode = .track ref) :
    u.serveSetMode (takeHead h 8#8) v =
      if v = 1#8 then u.finish (takeHead h 8#8) .ok (some (u.xpReply (plainReply c f)))
      else (u.leaveTrack c f .follow).hold (takeHead h 8#8) .ok { plainReply c f with fold := (u.xp c f).foldOwed } := by
  refine (State.withXp_of_decoded _ 8#8 _ hc hf hs hallow).trans ((if_neg (Nat.not_lt.2 hv)).trans ?_)
  rw [hm]

/-- The owner's crosspoint takes no other mode (R59). -/
theorem served_setMode_owner {v : Byte} (hv : v.toNat ≤ 1) (hm : (s.xp c f).mode = .owner) :
    Served (.setMode h v) s s h 8#8 .isOwner (some (s.xpReply (plainReply c f))) :=
  served_standing hr (serve := fun s t => s.serveSetMode t v) (args := [v]) rfl (Nat.le_of_ble_eq_true rfl)
    (serveSetMode_owner hc hf hs hallow _ hv hm)

/-- A crosspoint in FOLLOW stays there, or enters TRACK. -/
theorem setMode_follow (hm : (s.xp c f).mode = .follow) :
    Served (.setMode h 0#8) s s h 8#8 .ok (some (s.xpReply (plainReply c f))) ∧
      Waits (.setMode h 1#8) s (s.enterTrack c f) h 8#8 .ok (plainReply c f) :=
  ⟨served_standing hr (serve := fun s t => s.serveSetMode t 0#8) (args := [0#8]) rfl (Nat.le_of_ble_eq_true rfl)
      ((serveSetMode_follow hc hf hs hallow (s.setEx (s.ex.offer h 8#8 [0#8])) (by decide) hm).trans (if_neg (by decide))),
    waits_of_hold hr (serve := fun s t => s.serveSetMode t 1#8) (args := [1#8]) rfl (Nat.le_of_ble_eq_true rfl)
      hr.takeReady
      ((serveSetMode_follow hc hf hs hallow (s.setEx (s.ex.offer h 8#8 [1#8])) (by decide) hm).trans (if_pos rfl))⟩

/-- A crosspoint in TRACK stays there, or leaves it by the fold. -/
theorem setMode_track {ref : Int} (hm : (s.xp c f).mode = .track ref) :
    Served (.setMode h 1#8) s s h 8#8 .ok (some (s.xpReply (plainReply c f))) ∧
      Waits (.setMode h 0#8) s (s.leaveTrack c f .follow) h 8#8 .ok
        { plainReply c f with fold := (s.xp c f).foldOwed } :=
  ⟨served_standing hr (serve := fun s t => s.serveSetMode t 1#8) (args := [1#8]) rfl (Nat.le_of_ble_eq_true rfl)
      ((serveSetMode_track hc hf hs hallow (s.setEx (s.ex.offer h 8#8 [1#8])) (by decide) hm).trans (if_pos rfl)),
    waits_of_hold hr (serve := fun s t => s.serveSetMode t 0#8) (args := [0#8]) rfl (Nat.le_of_ble_eq_true rfl)
      hr.takeReady
      ((serveSetMode_track hc hf hs hallow (s.setEx (s.ex.offer h 8#8 [0#8])) (by decide) hm).trans (if_neg (by decide)))⟩

end takes

/-- Settles O53: by the crosspoint's mode, and in TRACK by whether a sample has used it. -/
theorem setModeKeepsTheLevel : Obligations.SetModeKeepsTheLevel := by
  intro s h c f src v x r hr hc hf hs hallow hx hreply
  subst hx hreply
  refine ⟨fun hv => served_setMode_badArg hr hc hf hs hallow hv, fun hv hm => served_setMode_owner hr hc hf hs hallow hv hm,
    fun hm => ?_, fun ref hm => ?_⟩
  · obtain ⟨hsame, henter⟩ := setMode_follow hr hc hf hs hallow hm
    rw [State.enterTrack, Xp.enterTrack_of_not_track (by rw [hm]; exact nofun)] at henter
    exact ⟨hsame, henter⟩
  · obtain ⟨hsame, hleave⟩ := setMode_track hr hc hf hs hallow hm
    refine ⟨hsame, fun hent => ?_, fun hent raw hraw => ?_⟩
    · have hnone := Xp.foldOwed_of_not (x := s.xp c f) (.inr hent)
      rw [State.leaveTrack, Xp.leaveTrack_of_none hnone, hnone, if_pos hent] at hleave
      exact hleave
    · have hfold := Xp.foldOwed_of_track hm hent
      rw [State.leaveTrack, Xp.leaveTrack_of_fold hfold hraw, hfold] at hleave
      exact hleave

end Sys2Proof.Machine
end

section
/-! PROOFS. CLAIM, takeover and RELEASE at their take (R56, R60 to R62, R81). -/

namespace Sys2Proof.Machine

/-! ### A channel handed over -/

/-- Memory does not enter a change of owner. -/
theorem State.changeOwner_withMem (s : State) (c : ChanId) (new : Option Feed) (k : OwnCause) (tag : Half)
    (m : List Host.Cell) : (s.setEx { s.ex with mem := m }).changeOwner c new k tag =
      (s.changeOwner c new k tag).setEx { (s.changeOwner c new k tag).ex with mem := m } := by
  rw [State.changeOwner_eq, State.changeOwner_eq]
  refine Eq.trans ?_ (congrArg (fun x => ({ s with
    chans := upd s.chans c { ((s.chan c).cancel c k).1 with owner := new }, ex := x } : State))
    (Exchange.joinAll_withMem s.frame
      (.ownership c (s.chan c).owner new k (some tag) :: ((s.chan c).cancel c k).2) s.ex m))
  rfl

theorem State.Ready.changeOwner {s t : State} {h : ReqHead} (hr : s.Ready h) (ht : t.ex = s.ex) (c : ChanId)
    (new : Option Feed) (k : OwnCause) (tag : Half) : s.ex.TakeReady (t.changeOwner c new k tag).ex := by
  rw [State.changeOwner_eq, ht]
  exact hr.takeReady.joinAll _ _

/-- The crosspoint of a channel's owner, if it has one, enters TRACK (R61). -/
def State.formerTracks (s : State) (c : ChanId) : State :=
  match (s.chan c).owner with
  | none => s
  | some e => s.enterTrack c e

theorem State.formerTracks_frame (s : State) (c : ChanId) :
    s.formerTracks c = { s with xps := (s.formerTracks c).xps } := by
  unfold State.formerTracks
  split
  · rfl
  · rfl

theorem State.formerTracks_xp (s : State) (c d : ChanId) (g : Feed) : (s.formerTracks c).xp d g =
    if c = d ∧ (s.chan c).owner = some g then (s.xp d g).enterTrack (s.chan c).level else s.xp d g := by
  unfold State.formerTracks
  split
  · next ho => rw [ho, if_neg fun h => nomatch h.2]
  · next e ho =>
    rw [State.enterTrack, State.setXp_xp, ho]
    by_cases h : c = d ∧ e = g
    · obtain ⟨rfl, rfl⟩ := h
      rw [if_pos ⟨rfl, rfl⟩, if_pos ⟨rfl, rfl⟩]
    · rw [if_neg h, if_neg fun hn => h ⟨hn.1, Option.some.inj hn.2⟩]

/-- A channel handed to a feed, from its owner if it has one (R60, R61). -/
def State.handOver (s : State) (c : ChanId) (f : Feed) (k : OwnCause) (tag : Half) : State :=
  ((s.formerTracks c).leaveTrack c f .owner).changeOwner c (some f) k tag

/-- CLAIM and takeover are one act: the cause is what the channel's owner makes it. -/
theorem State.claimFree_eq_handOver {s : State} {c : ChanId} {f : Feed} {tag : Half} (ho : (s.chan c).owner = none) :
    s.claimFree c f tag = s.handOver c f .claim tag := by
  rw [State.handOver, State.formerTracks, ho]
  rfl

theorem State.takeOver_eq_handOver {s : State} {c : ChanId} {e f : Feed} {tag : Half} (ho : (s.chan c).owner = some e) :
    s.takeOver c e f tag = s.handOver c f .takeover tag := by
  rw [State.handOver, State.formerTracks, ho]
  rfl

section handOver
variable (s : State) (c : ChanId) (f : Feed) (k : OwnCause) (tag : Half)

theorem State.handOver_withMem (m : List Host.Cell) : (s.setEx { s.ex with mem := m }).handOver c f k tag =
    (s.handOver c f k tag).setEx { (s.handOver c f k tag).ex with mem := m } := by
  have hformer : (s.setEx { s.ex with mem := m }).formerTracks c =
      (s.formerTracks c).setEx { (s.formerTracks c).ex with mem := m } := by
    unfold State.formerTracks
    rw [show (s.setEx { s.ex with mem := m }).chan c = s.chan c from rfl]
    split
    · rfl
    · rfl
  rw [State.handOver, hformer]
  exact State.changeOwner_withMem ((s.formerTracks c).leaveTrack c f .owner) c (some f) k tag m

/-- What a channel handed over changes besides its crosspoints (R56, R81). -/
theorem State.handOver_frame : s.handOver c f k tag = { s with
    chans := upd s.chans c { ((s.chan c).cancel c k).1 with owner := some f }
    xps := (s.handOver c f k tag).xps
    ex := s.ex.joinAll s.frame
      (.ownership c (s.chan c).owner (some f) k (some tag) :: ((s.chan c).cancel c k).2) } := by
  rw [State.handOver, State.changeOwner_eq, State.formerTracks_frame]
  rfl

theorem State.handOver_xp (d : ChanId) (g : Feed) : (s.handOver c f k tag).xp d g =
    if c = d ∧ f = g then ((s.formerTracks c).xp c f).leaveTrack .owner (s.chan c).level else (s.formerTracks c).xp d g := by
  have hxp : (s.handOver c f k tag).xp d g = ((s.formerTracks c).leaveTrack c f .owner).xp d g := by
    rw [State.handOver, State.changeOwner_eq]
    rfl
  have hchan : (s.formerTracks c).chan c = s.chan c := by rw [State.formerTracks_frame]; rfl
  rw [hxp, State.leaveTrack, State.setXp_xp, hchan]

/-- The crosspoints of the other channels. -/
theorem State.handOver_xps_other {d : ChanId} (hd : c ≠ d) : (s.handOver c f k tag).xps[d] = s.xps[d] := by
  have hformer : (s.formerTracks c).xps[d] = s.xps[d] := by
    unfold State.formerTracks
    split
    · rfl
    · exact upd_other _ _ hd
  rw [State.handOver, State.changeOwner_eq]
  exact (upd_other _ _ hd).trans hformer

end handOver

/-! ### The takes -/

section takes
variable {s : State} {h : ReqHead} {c : ChanId} {f : Feed} {src : Source} (hr : s.Ready h)
  (hc : decodeChannel h.channel = some c) (hf : decodeFeed h.feed = some f) (hs : decodeSource h.source = some src)
  (hallow : sourceAllows src f = true)
include hr hc hf hs hallow

/-- A disabled feed claims nothing (R60). -/
theorem served_claim_feedOff (hoff : s.feedOn.get f = false) :
    Served (.claim h) s s h 10#8 .feedOff (some (s.xpReply (ownerReply c f (s.chan c).owner))) :=
  served_standing hr (serve := fun s t => s.serveClaim t) (args := []) rfl (Nat.le_of_ble_eq_true rfl)
    ((State.withXp_of_decoded _ 10#8 _ hc hf hs hallow).trans (if_pos hoff))

omit hr in
/-- A CLAIM by the owner, and one of an owned channel by a feed that is not senior, change nothing (R60, R61). -/
theorem serveClaim_owned (u : State) {e : Feed} (hon : u.feedOn.get f = true) (ho : (u.chan c).owner = some e) :
    u.serveClaim (takeHead h 10#8) =
      if e = f then u.finish (takeHead h 10#8) .ok (some (u.xpReply (ownerReply c f (some e))))
      else if u.senior = some f then (u.handOver c f .takeover h.tag).hold (takeHead h 10#8) .ok
        { ownerReply c f (some e) with fold := (u.xp c f).foldOwed }
      else u.finish (takeHead h 10#8) .held (some (u.xpReply (ownerReply c f (some e)))) := by
  refine (State.withXp_of_decoded _ 10#8 _ hc hf hs hallow).trans
    ((if_neg (by rw [hon]; exact Bool.noConfusion)).trans ?_)
  rw [ho, ← State.takeOver_eq_handOver ho]
  rfl

omit hr in
theorem serveClaim_free (u : State) (hon : u.feedOn.get f = true) (ho : (u.chan c).owner = none) :
    u.serveClaim (takeHead h 10#8) = (u.handOver c f .claim h.tag).hold (takeHead h 10#8) .ok
      { ownerReply c f none with fold := (u.xp c f).foldOwed } := by
  refine (State.withXp_of_decoded _ 10#8 _ hc hf hs hallow).trans
    ((if_neg (by rw [hon]; exact Bool.noConfusion)).trans ?_)
  rw [ho, ← State.claimFree_eq_handOver ho]
  rfl

theorem served_claim_own (hon : s.feedOn.get f = true) (ho : (s.chan c).owner = some f) :
    Served (.claim h) s s h 10#8 .ok (some (s.xpReply (ownerReply c f (s.chan c).owner))) := by
  rw [ho]
  exact served_standing hr (serve := fun s t => s.serveClaim t) (args := []) rfl (Nat.le_of_ble_eq_true rfl)
    ((serveClaim_owned hc hf hs hallow (s.setEx (s.ex.offer h 10#8 [])) hon ho).trans (if_pos rfl))

theorem served_claim_held {e : Feed} (hon : s.feedOn.get f = true) (ho : (s.chan c).owner = some e) (he : e ≠ f)
    (hsenior : s.senior ≠ some f) :
    Served (.claim h) s s h 10#8 .held (some (s.xpReply (ownerReply c f (s.chan c).owner))) := by
  rw [ho]
  exact served_standing hr (serve := fun s t => s.serveClaim t) (args := []) rfl (Nat.le_of_ble_eq_true rfl)
    ((serveClaim_owned hc hf hs hallow (s.setEx (s.ex.offer h 10#8 [])) hon ho).trans
      ((if_neg he).trans (if_neg hsenior)))

/-- A CLAIM that succeeds waits for the first new sample of the claimant's crosspoint (R58, R60, R61). -/
theorem waits_claim {k : OwnCause} (hon : s.feedOn.get f = true)
    (ho : (s.chan c).owner = none ∨ ((s.chan c).owner ≠ some f ∧ s.senior = some f))
    (hk : k = if (s.chan c).owner = none then .claim else .takeover) :
    Waits (.claim h) s (s.handOver c f k h.tag) h 10#8 .ok
      { ownerReply c f (s.chan c).owner with fold := (s.xp c f).foldOwed } := by
  have hready : s.ex.TakeReady (s.handOver c f k h.tag).ex := by
    rw [State.handOver_frame]
    exact hr.takeReady.joinAll _ _
  refine waits_of_hold hr (serve := fun s t => s.serveClaim t) (args := []) rfl (Nat.le_of_ble_eq_true rfl) hready ?_
  rw [← State.handOver_withMem]
  cases howner : (s.chan c).owner with
  | none =>
    rw [howner, if_pos rfl] at hk
    subst hk
    exact serveClaim_free hc hf hs hallow (s.setEx (s.ex.offer h 10#8 [])) hon howner
  | some e =>
    rw [howner, if_neg nofun] at hk
    subst hk
    obtain ⟨hne, hsenior⟩ := ho.resolve_left (by rw [howner]; exact nofun)
    have he : e ≠ f := fun e => hne (e ▸ howner)
    exact (serveClaim_owned hc hf hs hallow (s.setEx (s.ex.offer h 10#8 [])) hon howner).trans
      ((if_neg he).trans (if_pos hsenior))

/-- A RELEASE of a channel that the feed does not own (R62). -/
theorem served_release_notOwner (ho : (s.chan c).owner ≠ some f) :
    Served (.release h) s s h 11#8 .notOwner (some (s.xpReply (ownerReply c f (s.chan c).owner))) :=
  served_standing hr (serve := fun s t => s.serveRelease t) (args := []) rfl (Nat.le_of_ble_eq_true rfl)
    ((State.withXp_of_decoded _ 11#8 _ hc hf hs hallow).trans (if_neg ho))

/-- A RELEASE by the owner waits for the first new sample of its crosspoint (R58, R62). -/
theorem waits_release (ho : (s.chan c).owner = some f) :
    Waits (.release h) s (s.giveUp c f .release h.tag) h 11#8 .ok (ownerReply c f (s.chan c).owner) := by
  refine waits_of_hold hr (serve := fun s t => s.serveRelease t) (args := []) rfl (Nat.le_of_ble_eq_true rfl)
    (hr.changeOwner (t := s.enterTrack c f) rfl c none .release h.tag)
    ((State.withXp_of_decoded _ 11#8 _ hc hf hs hallow).trans ((if_pos ho).trans ?_))
  exact congrArg (fun u : State => u.hold (takeHead h 11#8) .ok (ownerReply c f (s.chan c).owner))
    (State.changeOwner_withMem (s.enterTrack c f) c none .release h.tag _)

end takes

/-- Settles O54: a claim that succeeds is `State.handOver`, a release `State.giveUp`. -/
theorem claimAndRelease : Obligations.ClaimAndRelease := by
  intro s h c f src x fold r hr hc hf hs hallow hx hreply hfold hnone
  have hreply : r = ownerReply c f (s.chan c).owner := hreply
  subst hx hreply
  have hfold : fold = (s.xp c f).foldOwed := by
    by_cases hn : (∀ ref, (s.xp c f).mode ≠ .track ref) ∨ (s.xp c f).continuity = .entered
    · rw [hnone hn, Xp.foldOwed_of_not hn]
    · obtain ⟨htrack, hent⟩ := not_or.1 hn
      simp only [not_forall, not_not] at htrack
      obtain ⟨ref, hm⟩ := htrack
      rw [hfold ref hm hent, Xp.foldOwed_of_track hm hent]
  refine ⟨fun hoff => served_claim_feedOff hr hc hf hs hallow hoff, fun hon ho => served_claim_own hr hc hf hs hallow hon ho,
    fun e hon ho he hsenior => served_claim_held hr hc hf hs hallow hon ho he hsenior,
    fun ho => served_release_notOwner hr hc hf hs hallow ho, fun hon ho k hk => ?_, fun ho hm => ?_⟩
  · have hclaim := waits_claim hr hc hf hs hallow hon ho hk
    rw [← hfold] at hclaim
    have hother : (s.chan c).owner ≠ some f := by
      rcases ho with ho | ⟨ho, -⟩
      · rw [ho]; exact nofun
      · exact ho
    have hown : (s.handOver c f k h.tag).xp c f = (s.xp c f).leaveTrack .owner (s.chan c).level := by
      rw [State.handOver_xp, if_pos ⟨rfl, rfl⟩, State.formerTracks_xp, if_neg fun hn => hother hn.2]
    refine ⟨_, hclaim, s.handOver_frame c f k h.tag, fun d hd => s.handOver_xps_other c f k h.tag hd.symm, fun e he ho => ?_,
      fun e ho hm => ?_, fun hn => ?_, fun trim ref raw hfolds hraw => ?_⟩
    · rw [State.handOver_xp, if_neg fun hn => he hn.2.symm, State.formerTracks_xp, if_neg fun hn => ho hn.2]
    · have he : f ≠ e := fun hn => hother (hn ▸ ho)
      rw [State.handOver_xp, if_neg fun hn => he hn.2, State.formerTracks_xp, if_pos ⟨rfl, ho⟩,
        Xp.enterTrack_of_not_track (by rw [hm]; exact nofun)]
    · rw [hown, Xp.leaveTrack_of_none (hfold.symm.trans hn)]
    · rw [hown, Xp.leaveTrack_of_fold (hfold.symm.trans hfolds) hraw]
  · have hrelease := waits_release hr hc hf hs hallow ho
    rw [State.giveUp_eq, Xp.enterTrack_of_not_track (by rw [hm]; exact nofun), ho] at hrelease
    rw [ho]
    exact hrelease

end Sys2Proof.Machine
end

section
/-! PROOFS. The requests on a feed at their take: SET_FEED and LOAD_SLOTMAP (R65 to R68, R137, R138). -/

namespace Sys2Proof.Machine

/-! ### Masks and lists of channels -/

/-- A channel's bit of a mask that is built up channel by channel. -/
theorem foldl_mask_getLsbD (p : ChanId → Bool) (l : List ChanId) (m : ChanMask) (c : ChanId) :
    (l.foldl (fun m d => if p d then m ||| (1#64 <<< d.val) else m) m).getLsbD c.val =
      (m.getLsbD c.val || (decide (c ∈ l) && p c)) := by
  have hbit (d : ChanId) : (1#64 <<< d.val).getLsbD c.val = decide (c = d) := by
    rw [BitVec.getLsbD_shiftLeft, BitVec.getLsbD_one, Bool.eq_iff_iff]
    simp only [Bool.and_eq_true, Bool.not_eq_true', decide_eq_true_eq, decide_eq_false_iff_not, Fin.ext_iff]
    omega
  induction l generalizing m with
  | nil => simp
  | cons d l ih =>
    rw [List.foldl_cons, ih]
    by_cases hd : p d = true
    · rw [if_pos hd, BitVec.getLsbD_or, hbit]
      by_cases hc : c = d
      · subst hc; simp [hd]
      · simp [hc]
    · rw [if_neg hd]
      by_cases hc : c = d
      · subst hc; simp [hd]
      · simp [hc]

/-- The mask of a test has its bits where the test holds. -/
theorem maskOf_getLsbD (p : ChanId → Bool) (c : ChanId) : (maskOf p).getLsbD c.val = p c := by
  rw [maskOf, foldl_mask_getLsbD, BitVec.getLsbD_zero]
  simp [indices]

theorem flatMap_filter {α β : Type} (p : α → Bool) (g : α → List β) (l : List α) :
    (l.filter p).flatMap g = l.flatMap fun x => if p x = true then g x else [] := by
  induction l with
  | nil => rfl
  | cons x l ih =>
    rw [List.flatMap_cons, ← ih]
    by_cases h : p x = true
    · rw [List.filter_cons_of_pos h, if_pos h, List.flatMap_cons]
    · rw [List.filter_cons_of_neg h, if_neg h, List.nil_append]

/-! ### A feed turned on or off -/

/-- A feed turned off, turned on, or left as it is (R67). -/
def State.turnFeed (s : State) (f : Feed) (off on : Bool) (tag : Half) : State :=
  if off then s.disableFeed f tag else if on then s.enableFeed f tag else s

section turn
variable (s : State) (f : Feed) (off on : Bool) (tag : Half)

/-- Memory does not enter what turning a feed does. -/
theorem State.turnFeed_withMem (m : List Host.Cell) : (s.setEx { s.ex with mem := m }).turnFeed f off on tag =
    (s.turnFeed f off on tag).setEx { (s.turnFeed f off on tag).ex with mem := m } := by
  have hoff : (s.setEx { s.ex with mem := m }).disableFeed f tag =
      (s.disableFeed f tag).setEx { (s.disableFeed f tag).ex with mem := m } := by
    rw [State.disableFeed_eq, State.disableFeed_eq]
    simp only [State.withGivenUp, State.setEx, Exchange.joinAll_withMem]
    rfl
  have hon : (s.setEx { s.ex with mem := m }).enableFeed f tag =
      (s.enableFeed f tag).setEx { (s.enableFeed f tag).ex with mem := m } := by
    rw [State.enableFeed_eq, State.enableFeed_eq]
    simp only [State.setEx, Exchange.joinAll_withMem]
    rfl
  unfold State.turnFeed
  split
  · exact hoff
  · split
    · exact hon
    · rfl

/-- What turning a feed changes. -/
theorem State.turnFeed_frame : s.turnFeed f off on tag = { s with
    feedOn := (s.turnFeed f off on tag).feedOn, chans := (s.turnFeed f off on tag).chans
    xps := (s.turnFeed f off on tag).xps, ports := (s.turnFeed f off on tag).ports
    ex := (s.turnFeed f off on tag).ex } := by
  unfold State.turnFeed
  split
  · rw [State.disableFeed_eq]; rfl
  · split
    · rw [State.enableFeed_eq]
    · rfl

/-- The events of a feed turned off, or turned on: those of its ports, and then those of the channels it owned. -/
def State.turnEvents : List Event :=
  if off then (feedPorts f).flatMap (fun p => disableEvent tag p (s.port p)) ++
    (s.ownedBy f).flatMap (s.giveUpEvents .feedOff tag)
  else if on then (feedPorts f).flatMap fun p => enableEvent tag p (s.port p)
  else []

theorem State.turnFeed_ex : (s.turnFeed f off on tag).ex = s.ex.joinAll s.frame (s.turnEvents f off on tag) := by
  unfold State.turnFeed State.turnEvents
  split
  · rw [State.disableFeed_eq, Exchange.joinAll_append]; rfl
  · split
    · rw [State.enableFeed_eq]
    · rfl

theorem State.turnFeed_feedOn (h : on = true → off = false) : (s.turnFeed f off on tag).feedOn =
    s.feedOn.set f ((s.feedOn.get f && !off) || on) := by
  unfold State.turnFeed
  split
  · next hoff =>
    have hon : on = false := by cases on with
      | false => rfl
      | true => rw [h rfl] at hoff; cases hoff
    rw [State.disableFeed_eq, hoff, hon, Bool.not_true, Bool.and_false]
    rfl
  · next hoff =>
    split
    · next hon => rw [State.enableFeed_eq, hon, Bool.or_true]
    · next hon =>
      rw [Bool.not_eq_true] at hoff hon
      rw [hoff, hon, Bool.not_false, Bool.and_true, Bool.or_false]
      cases f <;> rfl

/-- A feed's ports are reset, to SEEKING where it is turned on, and the others stay (R137, R138). -/
theorem State.turnFeed_port (h : on = true → off = false) (p : Port) : (s.turnFeed f off on tag).port p =
    if portFeed p = f ∧ (off = true ∨ on = true) then { resetPort with state := if on then .seeking else .off }
    else s.port p := by
  unfold State.turnFeed
  split
  · next hoff =>
    have hon : on = false := by cases on with
      | false => rfl
      | true => rw [h rfl] at hoff; cases hoff
    rw [State.disableFeed_eq, hoff, hon]
    refine (PerPort.of_get _ p).trans ?_
    simp only [mem_feedPorts, true_or, and_true]
    rfl
  · next hoff =>
    split
    · next hon =>
      rw [State.enableFeed_eq, hon]
      refine (PerPort.of_get _ p).trans ?_
      simp only [mem_feedPorts, or_true, and_true]
    · next hon => rw [if_neg fun hn => hn.2.elim hoff hon]

/-- A channel of another owner stays, and one the feed owns is given up where it is turned off (R65, R81). -/
theorem State.turnFeed_chan (c : ChanId) : (s.turnFeed f off on tag).chan c =
    if off = true ∧ (s.chan c).owner = some f then (s.chan c).givenUp c .feedOff else s.chan c := by
  unfold State.turnFeed
  split
  · next hoff =>
    rw [State.disableFeed_eq, State.withGivenUp_chan, hoff]
    simp only [State.mem_ownedBy, true_and]
    rfl
  · next hoff =>
    rw [if_neg (c := off = true ∧ _) fun hn => hoff hn.1]
    split
    · rw [State.enableFeed_eq]; rfl
    · rfl

theorem State.turnFeed_xps (c : ChanId) : (s.turnFeed f off on tag).xps[c] =
    if off = true ∧ (s.chan c).owner = some f then s.xps[c].set f ((s.xp c f).enterTrack (s.chan c).level)
    else s.xps[c] := by
  unfold State.turnFeed
  split
  · next hoff =>
    rw [State.disableFeed_eq, State.withGivenUp_xps, hoff]
    simp only [State.mem_ownedBy, true_and]
    rfl
  · next hoff =>
    rw [if_neg (c := off = true ∧ _) fun hn => hoff hn.1]
    split
    · rw [State.enableFeed_eq]
    · rfl

end turn

/-! ### SET_FEED -/

/-- The state with another senior feed. -/
def State.withSenior (s : State) (x : Option Feed) : State := { s with senior := x }

/-- The selectors KEEP, MAKE and CLEAR (R66). -/
theorem selectSenior_eq_some {v : Byte} {f e : Feed} {old : Option Feed} : selectSenior v f old = some e ↔
    (v = 1#8 ∧ e = f) ∨ (v ≠ 1#8 ∧ old = some e ∧ ¬ (v = 2#8 ∧ e = f)) := by
  unfold selectSenior
  by_cases h1 : v = 1#8
  · simp [h1, eq_comm]
  · by_cases h2 : v = 2#8 ∧ old = some f
    · obtain ⟨rfl, rfl⟩ := h2
      simp [eq_comm]
    · rw [if_neg h1, if_neg h2]
      simp only [h1, false_and, false_or, ne_eq, not_false_eq_true, true_and]
      refine ⟨fun he => ⟨he, ?_⟩, And.left⟩
      rintro ⟨hv, rfl⟩
      exact h2 ⟨hv, he⟩

section takes
variable {s : State} {h : ReqHead} {f : Feed} {src : Source}

/-- The common checks pass where the feed and the source are in their sets and the source may act (R174, R57). -/
theorem State.withFeed_of_decoded (s : State) (kind : Byte) (k : Feed → State) (hf : decodeFeed h.feed = some f)
    (hs : decodeSource h.source = some src) (ha : sourceAllows src f = true) : s.withFeed (takeHead h kind) k = k f := by
  rw [State.withFeed, show decodeFeed (takeHead h kind).feed = some f from hf,
    show decodeSource (takeHead h kind).source = some src from hs]
  exact if_pos ha

variable (hr : s.Ready h) (hf : decodeFeed h.feed = some f) (hs : decodeSource h.source = some src)
  (hallow : sourceAllows src f = true)
include hr hf hs hallow

theorem served_setFeed_badArg {enable senior : Byte} (hv : 2 < enable.toNat ∨ 2 < senior.toNat) :
    Served (.setFeed h enable senior) s s h 12#8 .badArg none :=
  served_of_refusal hr (serve := fun s t => s.serveSetFeed t enable senior) (args := [enable, senior]) rfl
    (Nat.le_of_ble_eq_true rfl) fun _ => (State.withFeed_of_decoded _ 12#8 _ hf hs hallow).trans (if_pos hv)

/-- SET_FEED selects the senior feed and turns its feed (R66, R67). -/
theorem served_setFeed {enable senior : Byte} (hv : ¬ (2 < enable.toNat ∨ 2 < senior.toNat)) {off on : Bool}
    (hoff : off = (enable == 1#8 && s.feedOn.get f)) (hon : on = (enable == 2#8 && !s.feedOn.get f)) {u : State}
    (hu : u = (s.withSenior (selectSenior senior f s.senior)).turnFeed f off on h.tag) :
    Served (.setFeed h enable senior) s u h 12#8 .ok (some
      ([flagByte (u.feedOn.get f), ownerByte u.senior, 0#8, 0#8, 0#8, 0#8, 0#8, 0#8] ++
        maskBytes (if off then maskOf (s.owns f) else 0#64))) := by
  have hready : s.ex.TakeReady u.ex := by
    rw [hu, State.turnFeed_ex]
    exact hr.takeReady.joinAll _ _
  refine served_of_finish hr (serve := fun s t => s.serveSetFeed t enable senior) (args := [enable, senior]) rfl
    (Nat.le_of_ble_eq_true rfl) (by rintro bs ⟨⟩; exact Nat.le_of_ble_eq_true rfl) hready
    ((State.withFeed_of_decoded _ 12#8 _ hf hs hallow).trans ((if_neg hv).trans ?_))
  subst hu hoff hon
  exact congrArg (fun u : State => u.finish (takeHead h 12#8) .ok (some
      (padTo 8 [flagByte (u.feedOn.get f), ownerByte u.senior] ++
        maskBytes (if (enable == 1#8 && s.feedOn.get f) then maskOf (s.owns f) else 0#64))))
    (State.turnFeed_withMem (s.withSenior (selectSenior senior f s.senior)) f _ _ h.tag _)

end takes

theorem State.owns_eq (s : State) {f : Feed} {c : ChanId} : s.owns f c = decide ((s.chan c).owner = some f) := by
  rw [Bool.eq_iff_iff, State.owns, beq_iff_eq, decide_eq_true_eq]

/-- The ports of a feed, in port order (section 7.1). -/
theorem feedPorts_eq_filter (f : Feed) : feedPorts f = [Port.a, .b, .c1, .c2, .d].filter fun p => portFeed p == f := by
  cases f <;> rfl

section events
variable (s : State) (f : Feed) (tag : Half)

/-- The events of a feed turned on: one LINK event for each of its ports, in port order (R137). -/
theorem State.turnEvents_on {ports : List Port} (hp : ports = feedPorts f) : s.turnEvents f false true tag =
    ports.map fun p => .link p (s.port p).state .seeking .enable 0 none (some tag) := by
  rw [hp, List.map_eq_flatMap]
  rfl

/-- The events of a feed turned off: its ports' LINK events, and then, channel by channel, OWNERSHIP and what it cancels
(R65, R138). -/
theorem State.turnEvents_off {ports : List Port} (hp : ports = feedPorts f) (on : Bool) : s.turnEvents f true on tag =
    (ports.flatMap fun p => if (s.port p).state = .off then []
      else [.link p (s.port p).state .off .disable ((s.port p).window.countP id) (s.port p).latest (some tag)]) ++
    (List.finRange 64).flatMap fun c => if (s.chan c).owner = some f
      then .ownership c (some f) none .feedOff (some tag) :: ((s.chan c).cancel c .feedOff).2 else [] := by
  have hchans : (s.ownedBy f).flatMap (s.giveUpEvents .feedOff tag) =
      (List.finRange 64).flatMap fun c => if (s.chan c).owner = some f
        then .ownership c (some f) none .feedOff (some tag) :: ((s.chan c).cancel c .feedOff).2 else [] := by
    rw [State.ownedBy, flatMap_filter]
    refine List.flatMap_congr fun c _ => ?_
    simp only [State.owns, beq_iff_eq]
    split
    · next ho => rw [State.giveUpEvents, ho]
    · rfl
  rw [State.turnEvents, if_pos rfl, hchans, hp]
  rfl

end events

/-- Settles O55: SET_FEED is a selection of the senior feed and `State.turnFeed`, whose parts are read off one by one. -/
theorem setFeedTurnsFeed : Obligations.SetFeedTurnsFeed := by
  intro s h f src enable senior hr howner hf hs hallow
  refine ⟨fun hv => served_setFeed_badArg hr hf hs hallow hv, fun he hv off on hoff hon => ?_⟩
  obtain ⟨u, hu⟩ : ∃ u, u = (s.withSenior (selectSenior senior f s.senior)).turnFeed f off on h.tag := ⟨_, rfl⟩
  have hex : on = true → off = false := by
    rintro rfl
    obtain ⟨-, hfeed⟩ := Bool.and_eq_true_iff.1 hon.symm
    rw [hoff, (Bool.not_eq_true' _).mp hfeed, Bool.and_false]
  have hframe := hu.trans (State.turnFeed_frame _ f off on h.tag)
  rw [← hu] at hframe
  have hsenior : u.senior = selectSenior senior f s.senior := congrArg State.senior hframe
  have hport (p : Port) := (congrArg (State.port · p) hu).trans (State.turnFeed_port _ f off on h.tag hex p)
  have hevents := (congrArg State.ex hu).trans (State.turnFeed_ex _ f off on h.tag)
  have hchan (c : ChanId) := (congrArg (State.chan · c) hu).trans (State.turnFeed_chan _ f off on h.tag c)
  have hxps (c : ChanId) := (congrArg (fun t : State => t.xps[c]) hu).trans (State.turnFeed_xps _ f off on h.tag c)
  refine ⟨u, _, served_setFeed hr hf hs hallow (by omega) hoff hon hu, fun c => ?_, ?_, fun e => ?_, ?_, fun p hp => ?_,
    fun p hp ht => ?_, ?_, fun ports hports => ⟨?_, ?_⟩, fun c => ⟨?_, ?_⟩⟩
  · cases off with
    | false => exact BitVec.getLsbD_zero
    | true => exact (maskOf_getLsbD (s.owns f) c).trans s.owns_eq
  · rw [hsenior]
    exact hframe
  · rw [hsenior]
    exact selectSenior_eq_some
  · exact (congrArg State.feedOn hu).trans (State.turnFeed_feedOn _ f off on h.tag hex)
  · refine (hport p).trans (if_neg ?_)
    rintro ⟨hpf, hturn⟩
    rcases hp with hp | ⟨rfl, rfl⟩
    · exact hp hpf
    · exact hturn.elim Bool.noConfusion Bool.noConfusion
  · exact (hport p).trans (if_pos ⟨hp, ht⟩)
  · rintro rfl rfl
    exact hevents
  · rintro rfl
    rw [hex rfl, State.turnEvents_on _ _ _ (hports.trans (feedPorts_eq_filter f).symm)] at hevents
    exact hevents
  · rintro rfl
    rw [State.turnEvents_off _ _ _ (hports.trans (feedPorts_eq_filter f).symm)] at hevents
    exact hevents
  · exact fun hn => ⟨(hchan c).trans (if_neg hn), (hxps c).trans (if_neg hn)⟩
  · intro ht ho
    refine ⟨(hchan c).trans (if_pos ⟨ht, ho⟩), fun e => ?_⟩
    have hmode : (s.xp c f).mode = .owner := (howner.1 c f).2 ho
    have hxp : u.xp c e = (s.xps[c].set f ((s.xp c f).enterTrack (s.chan c).level)).get e :=
      congrArg (PerFeed.get · e) ((hxps c).trans (if_pos ⟨ht, ho⟩))
    rw [hxp, PerFeed.set_get, Xp.enterTrack_of_not_track (by rw [hmode]; exact nofun)]
    simp only [eq_comm (a := e)]
    rfl

/-! ### LOAD_SLOTMAP (R68) -/

theorem inWindow_iff {off size : Nat} :
    inWindow off size = true ↔ off % 64 = 0 ∧ 0x80 ≤ off ∧ off + size ≤ 0x10000 := by
  simp only [inWindow, Bool.and_eq_true, beq_iff_eq, decide_eq_true_eq, and_assoc]
  rfl

theorem mapped_iff {v : Vector (Option ChanId) 64} {c : ChanId} : mapped v c = true ↔ ∃ i : SlotId, v[i] = some c := by
  simp [mapped, indices]

/-- A slot map byte stands for an empty slot or for the channel it names (R68, R182). -/
def SlotByte (b : Byte) (slot : Option ChanId) : Prop :=
  (b = 0xFF#8 ∧ slot = none) ∨ ∃ c : ChanId, b.toNat = c.val ∧ slot = some c

theorem SlotByte.decodes {b : Byte} {slot : Option ChanId} (h : SlotByte b slot) : decodeChannel b = slot := by
  rcases h with ⟨rfl, rfl⟩ | ⟨c, hb, rfl⟩
  · exact decodeChannel_none (by decide)
  · have hlt : b.toNat < 64 := hb ▸ c.isLt
    rw [decodeChannel, dif_pos hlt]
    exact congrArg some (Fin.ext hb)

theorem SlotByte.valid {b : Byte} {slot : Option ChanId} (h : SlotByte b slot) : slotByteValid b = true := by
  rcases h with ⟨rfl, -⟩ | ⟨c, hb, -⟩
  · decide
  · have hlt : b.toNat < 64 := hb ▸ c.isLt
    rw [slotByteValid, decide_eq_true hlt, Bool.true_or]

theorem slotByteValid_eq_false {b : Byte} (h : 64 ≤ b.toNat) (hb : b ≠ 0xFF#8) : slotByteValid b = false := by
  rw [slotByteValid, decide_eq_false (Nat.not_lt.2 h), Bool.false_or]
  exact beq_false_of_ne hb

/-- The map read is the one that the bytes stand for, slot by slot. -/
theorem readSlots_eq {m : List Host.Cell} {off : Nat} {v : Vector (Option ChanId) 64}
    (h : ∀ i : SlotId, SlotByte (readByte m (off + i.val)) v[i]) : readSlots m off = v :=
  Vector.ext fun i hi => (tab_get _ (⟨i, hi⟩ : SlotId)).trans (h ⟨i, hi⟩).decodes

section takes
variable {s : State} {h : ReqHead} {f : Feed} {src : Source} (hr : s.Ready h) (hf : decodeFeed h.feed = some f)
  (hs : decodeSource h.source = some src) (hallow : sourceAllows src f = true) {map : Word}
include hr hf hs hallow

theorem served_loadSlotmap_badPointer (hmap : inWindow map.toNat 64 = false) :
    Served (.loadSlotmap h map) s s h 13#8 .badPointer none :=
  served_of_refusal hr (serve := fun s t => s.serveLoadSlotmap t map) (args := wordBytes map) rfl
    (Nat.le_of_ble_eq_true rfl) fun _ => (State.withFeed_of_decoded _ 13#8 _ hf hs hallow).trans (if_pos hmap)

variable {m : List Host.Cell} (hm : m = (s.ex.offer h 13#8 (wordBytes map)).mem) (hmap : inWindow map.toNat 64 = true)
include hm hmap

theorem served_loadSlotmap_badArg
    (hbytes : (indices 64).all (fun i => slotByteValid (readByte m (map.toNat + i.val))) = false) :
    Served (.loadSlotmap h map) s s h 13#8 .badArg none := by
  subst hm
  exact served_of_finish hr (serve := fun s t => s.serveLoadSlotmap t map) (args := wordBytes map) rfl
    (Nat.le_of_ble_eq_true rfl) nofun hr.takeReady ((State.withFeed_of_decoded _ 13#8 _ hf hs hallow).trans
      ((if_neg (by rw [hmap]; exact Bool.noConfusion)).trans (if_pos hbytes)))

/-- The map is replaced whole (R68). -/
theorem served_loadSlotmap {v : Vector (Option ChanId) 64}
    (hbytes : ∀ i : SlotId, SlotByte (readByte m (map.toNat + i.val)) v[i]) :
    Served (.loadSlotmap h map) s { s with slots := s.slots.set f v } h 13#8 .ok (some
      (padTo 8 [u8 ((indices 64).countP fun i => v[i] == none), u8 ((indices 64).countP fun c => mapped v c)] ++
        maskBytes (maskOf (mapped v)))) := by
  subst hm
  have hvalid : ¬ (indices 64).all (fun i => slotByteValid
      (readByte (s.ex.offer h 13#8 (wordBytes map)).mem (map.toNat + i.val))) = false := by
    rw [Bool.not_eq_false, List.all_eq_true]
    exact fun i _ => (hbytes i).valid
  refine served_of_finish hr (serve := fun s t => s.serveLoadSlotmap t map) (args := wordBytes map) rfl
    (Nat.le_of_ble_eq_true rfl) (by rintro bs ⟨⟩; exact Nat.le_of_ble_eq_true rfl) hr.takeReady
    ((State.withFeed_of_decoded _ 13#8 _ hf hs hallow).trans
      ((if_neg (by rw [hmap]; exact Bool.noConfusion)).trans ((if_neg hvalid).trans ?_)))
  rw [show readSlots (s.setEx (s.ex.offer h 13#8 (wordBytes map))).ex.mem map.toNat = v from readSlots_eq hbytes]
  rfl

end takes

/-- Settles O56: the checks of the pointer and of the bytes, and then the map that the bytes stand for. -/
theorem loadSlotmapReplacesMap : Obligations.LoadSlotmapReplacesMap := by
  intro s h f src map m hr hf hs hallow hm
  refine ⟨fun hbad => served_loadSlotmap_badPointer hr hf hs hallow (Bool.eq_false_iff.2 (mt inWindow_iff.1 hbad)),
    fun halign hlow hhigh => ?_⟩
  have hmap : inWindow map.toNat 64 = true := inWindow_iff.2 ⟨halign, hlow, hhigh⟩
  refine ⟨fun ⟨i, hi, hbyte, hne⟩ => served_loadSlotmap_badArg hr hf hs hallow hm hmap ?_, fun v hv => ?_⟩
  · rw [List.all_eq_false]
    exact ⟨⟨i, hi⟩, List.mem_finRange _, Bool.eq_false_iff.1 (slotByteValid_eq_false hbyte hne)⟩
  · have hserved := served_loadSlotmap hr hf hs hallow hm hmap hv
    refine ⟨maskOf (mapped v), fun c => ?_, ?_⟩
    · rw [maskOf_getLsbD, mapped_iff]
    · simp only [maskOf_getLsbD]
      exact hserved

end Sys2Proof.Machine
end

section
/-! PROOFS. A due entry put in force (R69, R77, R78, R82). -/

namespace Sys2Proof.Machine

section application
variable {c : ChanId} {ch : Chan} {e : PendingEntry} {rest : List PendingEntry}

/-- The record of a channel once its head entry is in force. -/
def Chan.afterHead (ch : Chan) (e : PendingEntry) (rest : List PendingEntry) : Chan :=
  { ch with app := e.setting, pend := rest }

theorem Chan.applyHead_eq (h : ch.pend = e :: rest) : ch.applyHead c =
    if ch.op = .settling ∧ rest = [] then (ch.afterHead e rest).settleCheck c else (ch.afterHead e rest, []) := by
  rw [Chan.applyHead, h]
  rfl

/-- The settings and the owner after a due entry: the entry is in force and no longer waits. -/
theorem Chan.applyHead_settings (h : ch.pend = e :: rest) :
    (ch.applyHead c).1.settings = (ch.afterHead e rest).settings ∧ (ch.applyHead c).1.owner = ch.owner := by
  rw [Chan.applyHead_eq h]
  split
  · exact ⟨Chan.settleCheck_settings c _, Chan.settleCheck_owner c _⟩
  · exact ⟨rfl, rfl⟩

theorem State.applyPending_eq {s : State} (h : (s.chan c).pend = e :: rest) (hdue : e.due = s.frame) :
    s.applyPending c = s.putChan c ((s.chan c).applyHead c) := by
  refine if_pos ?_
  rw [Chan.applicationDue, h]
  exact beq_iff_eq.2 hdue

end application

/-- Settles O25: the entry is put in force by `State.putChan`, which brings the crosspoints to the new level. -/
theorem applicationPutsLevelInForce : Obligations.ApplicationPutsLevelInForce := by
  intro s c e rest hpend hdue
  obtain ⟨r, hr⟩ : ∃ r, r = (s.chan c).applyHead c := ⟨_, rfl⟩
  have hexec : exec (.pendingApplication c) s = .next (s.putChan c r) := by
    rw [hr]
    exact congrArg Host.Outcome.next (State.applyPending_eq hpend hdue)
  have hchan : (s.putChan c r).chan c = r.1 := upd_same _ _ _
  obtain ⟨hsettings, howner⟩ := Chan.applyHead_settings (c := c) hpend
  rw [← hr] at hsettings howner
  obtain ⟨hack, happ, htgt, hpends, -⟩ := Chan.settings_iff.1 hsettings
  have hlevel : r.1.level = e.setting.level := Chan.level_of_settings hsettings
  have hhead := Chan.applyHead_eq (c := c) hpend
  rw [← hr] at hhead
  refine ⟨_, hexec, rfl,
    fun d hd => ⟨upd_other _ _ hd.symm, State.xp_of_xps (s.putChan_xps_other r hd.symm)⟩, fun f => ?_, ?_, ?_, ?_, ?_, ?_, fun hn => ?_, fun hop hrest => ⟨r.2, rfl, ?_⟩⟩
  · rw [← hlevel]
    exact s.putChan_atLevel c r f
  · rw [hchan, happ]; rfl
  · rw [hchan, hpends]; rfl
  · rw [hchan, hack]; rfl
  · rw [hchan, htgt]; rfl
  · rw [hchan, howner]
  · rw [if_neg fun h => hn.elim (fun hne => hne h.1) fun hne => hne h.2] at hhead
    rw [hchan, hhead]
    exact ⟨rfl, rfl⟩
  · subst hrest
    rw [if_pos ⟨hop, rfl⟩] at hhead
    rw [hchan, hhead]
    exact Chan.settleCheck_settles c _

end Sys2Proof.Machine
end

section
/-! PROOFS. The record in hand: a sample forms its reply, the boundary work leaves it, and REPLY_WRITE writes it (R52, R58,
R170, R171). -/

namespace Sys2Proof.Machine

/-! ### What leaves the record in hand -/

section keeps
variable (s : State)

theorem State.raiseAll_inHand (es : List Event) : (s.raiseAll es).ex.inHand = s.ex.inHand := by
  rw [State.raiseAll, State.setEx, Exchange.joinAll_frame]

theorem State.raise_inHand (e : Event) : (s.raise e).ex.inHand = s.ex.inHand := s.raiseAll_inHand [e]

theorem State.putChan_inHand (c : ChanId) (r : Chan × List Event) : (s.putChan c r).ex.inHand = s.ex.inHand := by
  rw [State.putChan, Exchange.joinAll_frame]

theorem State.putClock_inHand (m : ClockMove) (tag : Option Half) : (s.putClock m tag).ex.inHand = s.ex.inHand := by
  unfold State.putClock
  split
  · rfl
  · exact State.raise_inHand _ _

theorem State.guardChan_inHand (c : ChanId) (code : Nat) : (s.guardChan c code).ex.inHand = s.ex.inHand := by
  have hfloor (t : State) : (t.guardFloor c code).ex.inHand = t.ex.inHand := by
    unfold State.guardFloor
    dsimp only
    split
    · rfl
    · exact State.raise_inHand _ _
  have hstep (t : State) : (t.guardStep c code).ex.inHand = t.ex.inHand := t.putChan_inHand c _
  unfold State.guardChan
  dsimp only
  split
  · split
    · split
      · exact hstep _
      · exact hfloor _
    · rfl
  · rfl

theorem State.meterChan_inHand (c : ChanId) : (s.meterChan c).ex.inHand = s.ex.inHand := s.guardChan_inHand c _

theorem State.clockSettled_inHand : s.clockSettled.ex.inHand = s.ex.inHand := by
  have hgives : s.acquisitionGivesUp.ex.inHand = s.ex.inHand := by
    unfold State.acquisitionGivesUp
    split
    · exact s.putClock_inHand _ _
    · rfl
  have hretries (t : State) : t.clockRetries.ex.inHand = t.ex.inHand := by
    unfold State.clockRetries
    split
    · exact t.putClock_inHand _ _
    · rfl
  rw [State.clockSettled, hretries, hgives]

/-- No unit's boundary work touches the record in hand. -/
theorem State.unitWork_inHand (u : BoundaryUnit) (ph : PhaseInput) : (s.unitWork u ph).ex.inHand = s.ex.inHand := by
  cases u with
  | meterGuard => exact foldl_keeps (g := fun t : State => t.ex.inHand) State.meterChan_inHand _ _
  | preampLine => rfl
  | sceneStore =>
    change s.sceneBoundary.ex.inHand = s.ex.inHand
    unfold State.sceneBoundary
    split
    · rfl
    · rw [State.raiseAll_inHand, State.exchangeBanks_frame]
  | feedPorts => exact foldl_keeps (g := fun t : State => t.ex.inHand) (fun t p => (t.setPort p _).raiseAll_inHand _) _ _
  | exchange => rfl
  | clock => exact s.putClock_inHand _ _

theorem State.boundaryWork_inHand (us : List BoundaryUnit) (ph : PhaseInput) :
    (s.boundaryWork us ph).ex.inHand = s.ex.inHand :=
  State.boundaryWork_induct (P := fun t => t.ex.inHand = s.ex.inHand) (fun _ _ ht => ht)
    (fun t u _ _ ht => (t.unitWork_inHand u ph).trans ht) rfl

theorem State.exchangeSettled_inHand : s.exchangeSettled.ex.inHand = s.ex.inHand := by
  have hsnap (x : Exchange) (m : Snapshot) : (x.takeSnapshot m).inHand = x.inHand := by
    unfold Exchange.takeSnapshot
    split
    · rfl
    · split <;> rfl
  have hclose : s.closeInterval.ex.inHand = s.ex.inHand := by
    unfold State.closeInterval
    split
    · exact hsnap _ _
    · rfl
  have hpoll (x : Exchange) : x.pollExpires.inHand = x.inHand := by rw [Exchange.pollExpires_frame]
  exact (hpoll _).trans hclose

/-- Nothing of a boundary touches the record in hand. -/
theorem State.boundaryRest_inHand : s.boundaryRest.ex.inHand = s.ex.inHand := by
  rw [State.boundaryRest_eq]
  split
  · rfl
  · have hretries : s.boundaryMade.ex.inHand = (s.boundaryWork allUnits (freePhase s.frame)).clockSettled.ex.inHand := by
      rw [State.boundaryMade, State.retries_frame]
    rw [State.exchangeSettled_inHand, hretries, State.clockSettled_inHand, State.boundaryWork_inHand]

end keeps

/-! ### The reply formed -/

/-- The record in hand once its first new sample has formed its reply (R52, R58). -/
def InHand.formed (k : InHand) (s : State) : InHand :=
  { k with ready := some (if k.result = .ok ∧ k.reply.foldClamped (s.chan k.reply.c).level = true then .clamped else k.result,
      s.xpReply k.reply) }

theorem State.latchReply_inHand {s : State} {k : InHand} (h : s.ex.inHand = some k) (hready : k.ready = none) :
    s.latchReply.inHand = some (k.formed s) := by
  rw [State.latchReply, h]
  dsimp only
  rw [hready]
  rfl

/-- A SAMPLE_PERIOD with nothing due before its sample and every lane judged forms the reply from the state it finds. -/
theorem exec_samplePeriod_inHand {s : State} {k : InHand} (h : s.ex.inHand = some k) (hready : k.ready = none)
    (hcalm : s.calmBefore = true) (hlanes : ∀ g : LaneId, s.lanes[g].judged = true) :
    ∃ t, exec .samplePeriod s = .next t ∧ t.ex.inHand = some (k.formed s) := by
  have hbefore : s.before = s := by
    rw [State.before_of_calm hcalm, ← State.missingFrames_eq, s.missingFrames_of_judged hlanes]
  refine ⟨_, exec_samplePeriod s, ?_⟩
  rw [hbefore, State.endPeriod_ex, State.boundaryRest_inHand, State.sampled_ex, Exchange.joinAll_frame]
  exact State.latchReply_inHand h hready

/-! ### The reply written -/

/-- REPLY_WRITE does nothing before the first new sample (R58). -/
theorem Exchange.writeReply_none {x : Exchange} {k : InHand} (h : x.inHand = some k) (hready : k.ready = none) :
    x.writeReply = x := by
  rw [Exchange.writeReply, h]
  dsimp only
  rw [hready]

theorem Exchange.writeReply_some {x : Exchange} {k : InHand} {r : Result} {bs : List Byte} (h : x.inHand = some k)
    (hready : k.ready = some (r, bs)) : x.writeReply = x.finish k.head r (some bs) := by
  rw [Exchange.writeReply, h]
  dsimp only
  rw [hready]

/-- With no clear waiting, a take that completes moves the cursor, and stops the walk where ENABLE is 0 (R170). -/
theorem Exchange.finish_eq {x : Exchange} (t : TakeHead) (r : Result) (reply : Option (List Byte))
    (h : x.clearAsked = false) : x.finish t r reply = { x with
      cursor := t.off, inHand := none, mem := (x.writeOutcome t r reply).mem
      walking := x.walking && x.enable, again := x.again && x.enable } := by
  rw [Exchange.finish, Exchange.complete]
  cases hen : x.enable with
  | true => simp [Exchange.writeOutcome, h, hen]
  | false => simp [Exchange.writeOutcome, h, hen]

section outcome
variable {x : Exchange} (t : TakeHead) (r : Result) {bs : List Byte} (hw : Memory.wf x.mem) (hl : bs.length ≤ 32)
include hl

theorem Exchange.writeOutcome_stores : x.StoresOutcome t.off (x.writeOutcome t r (some bs)) := by
  intro a h1 h2
  have hlen := padTo_length hl
  simp only [Exchange.writeOutcome]
  rw [readByte_writeBytes_other _ _ (by simpa using h1), readByte_writeBytes_other _ _ (by rw [hlen]; exact h2)]

include hw

/-- The header word and the reply of an outcome (R171). -/
theorem Exchange.writeOutcome_reads :
    readBytes (x.writeOutcome t r (some bs)).mem t.off 4 = [2#8, t.kind, t.source, r.code] ∧
      readBytes (x.writeOutcome t r (some bs)).mem (t.off + 0x20) 32 = padTo 32 bs := by
  have hlen := padTo_length hl
  refine ⟨readBytes_writeBytes_same [2#8, t.kind, t.source, r.code] _ (writeBytes_wf _ _ hw), ?_⟩
  simp only [Exchange.writeOutcome]
  rw [readBytes_writeBytes_other _ _ _ (by right; simp)]
  have hreply := readBytes_writeBytes_same (padTo 32 bs) (t.off + 0x20) hw
  rwa [hlen] at hreply

end outcome

/-- Settles O39: the sample forms the reply, nothing after it moves it, and REPLY_WRITE is the completion of the take. -/
theorem replyFollowsFirstSample : Obligations.ReplyFollowsFirstSample := by
  intro s k hk
  refine ⟨fun hready => ?_, fun hready hcalm hlanes => ?_, fun r bs hready hl hclear hw => ?_⟩
  · exact congrArg (fun x => Host.Outcome.next (s.setEx x)) (Exchange.writeReply_none hk hready)
  · obtain ⟨t, ht, hin⟩ := exec_samplePeriod_inHand hk hready hcalm hlanes
    refine ⟨t, _, ht, hin, fun hn => if_neg ?_, fun trim ref raw hfold hok hraw => ⟨fun hrange => ?_, fun hrange => ?_⟩⟩
    · rintro ⟨hok, hclamped⟩
      obtain ⟨trim, ref, hfold, -⟩ := (XpReply.foldClamped_iff _ _).1 hclamped
      rcases hn with hn | hn
      · rw [hn] at hfold; cases hfold
      · exact hn hok
    · refine (if_neg ?_).trans hok
      rintro ⟨-, hclamped⟩
      obtain ⟨trim', ref', hfold', hout⟩ := (XpReply.foldClamped_iff _ _).1 hclamped
      cases hfold.symm.trans hfold'
      omega
    · exact if_pos ⟨hok, (XpReply.foldClamped_iff _ _).2 ⟨trim, ref, hfold, hraw ▸ hrange⟩⟩
  · have hfinish := (Exchange.writeReply_some hk hready).trans (Exchange.finish_eq k.head r (some bs) hclear)
    obtain ⟨hheader, hreply⟩ := Exchange.writeOutcome_reads k.head r hw hl
    exact ⟨_, congrArg (fun x => Host.Outcome.next (s.setEx x)) hfinish, rfl, rfl, hheader, hreply,
      Exchange.writeOutcome_stores k.head r hl⟩

end Sys2Proof.Machine
end

section
/-! PROOFS. What falls due on a channel, a target by the state of the operation, and the operation that a change of owner
finds (R71, R73, R79, R81, R82, R89, R91). -/

namespace Sys2Proof.Machine

/-! ### What falls due (R73, R91) -/

section due
variable {s : State} {c : ChanId}

/-- A window that has run out forces the step (R73). -/
theorem State.forceStep_of_due (hop : (s.chan c).op = .zcWait) (hwindow : (s.chan c).window = 0) :
    s.forceStep c = s.setChan c (s.chan c).force :=
  if_pos (by rw [Chan.forcedDue, hop, hwindow]; rfl)

/-- A ramp that has run out ends, and the applied level does not move (R91). -/
theorem State.finishRamp_of_due (hphantom : (s.chan c).phantom = .rampUp ∨ (s.chan c).phantom = .rampDown)
    (hramp : (s.chan c).ramp = 0) : s.finishRamp c = { s with
      chans := upd s.chans c ((s.chan c).endRamp c).1
      ex := s.ex.joinAll s.frame ((s.chan c).endRamp c).2 } := by
  have hdue : (s.chan c).rampDue = true := by
    rw [Chan.rampDue, Chan.rampMute, hramp]
    rcases hphantom with h | h <;> rw [h] <;> rfl
  rw [State.finishRamp, if_pos hdue, State.putChan_of_level rfl]

end due

/-- Settles O24: each of the two steps does its work where it is due. -/
theorem forcedStepAndRampEnd : Obligations.ForcedStepAndRampEnd := fun _ _ =>
  ⟨fun hop hwindow => congrArg Host.Outcome.next (State.forceStep_of_due hop hwindow),
    fun hphantom hramp => congrArg Host.Outcome.next (State.finishRamp_of_due hphantom hramp)⟩

/-! ### The response to a target, state by state (R79, R89) -/

section respond
variable {c : ChanId} {tag : Option Half} {ch : Chan}

theorem Chan.respond_idle (hop : ch.op = .idle) :
    ch.respond c tag = if ch.tgt = ch.ack then (ch, []) else ((ch.opening tag).enterZc, []) := by
  rw [Chan.respond, hop]

theorem Chan.respond_waiting (hop : ch.op = .zcWait ∨ ch.op = .lineWait) :
    ch.respond c tag = if ch.tgt = ch.ack then ch.closeIdle c else (ch, []) := by
  rcases hop with hop | hop <;> rw [Chan.respond, hop]

/-- A commanded step runs on whatever the target. -/
theorem Chan.respond_commanded
    (h : ch.op = .settling ∨ (ch.op = .ackWait ∧ (ch.carried ≠ .nothing ∨ ch.resume = .settling))) :
    ch.respond c tag = (ch, []) := by
  rcases h with hop | ⟨hop, hcarried⟩
  · rw [Chan.respond, hop]
  · rw [Chan.respond, hop]
    dsimp only
    split
    case h_1 hc hr | h_2 hc hr => simp [hc, hr] at hcarried
    all_goals rfl

theorem Chan.respond_resumingIdle (hop : ch.op = .ackWait) (hc : ch.carried = .nothing) (hr : ch.resume = .idle) :
    ch.respond c tag = if ch.tgt = ch.ack then (ch, []) else ({ ch.opening tag with resume := .zcWait }, []) := by
  rw [Chan.respond, hop, hc, hr]

theorem Chan.respond_resumingZcWait (hop : ch.op = .ackWait) (hc : ch.carried = .nothing) (hr : ch.resume = .zcWait) :
    ch.respond c tag = if ch.tgt = ch.ack then ({ (ch.close c).1 with resume := .idle }, (ch.close c).2) else (ch, []) := by
  rw [Chan.respond, hop, hc, hr]

theorem Chan.respond_suspect (hop : ch.op = .suspect) :
    ch.respond c tag = if ch.tgt = ch.ack ∨ ch.opened = true then (ch, []) else (ch.opening tag, []) := by
  rw [Chan.respond, hop]

end respond

/-- What a request or a swap records with its target, its two counts by whether a cancel note is held (R71, R82). -/
theorem Chan.record_eq (ch : Chan) (tag : Option Half) (x : Setting) : ch.record tag x = { ch with
    tgt := x, tag := tag, tgtSet := true, urgent := false, note := none
    superseded := if ch.note ≠ none then 0 else if ch.opened = true then min 65535 (ch.superseded + 1) else ch.superseded
    forced := if ch.note ≠ none then 0 else ch.forced } := by
  rw [Chan.record]
  cases ch.note <;> rfl

/-- Settles O26: the target is recorded, and the record responds by its state. -/
theorem retargetByState : Obligations.RetargetByState := by
  intro c tag x ch o opened closed before ended r ho hopened hclosed hbefore hended hr
  have hrespond : ∀ {y : Chan} {es : List Event}, o.respond c tag = (y, es) → r = (y, before ++ es) := by
    intro y es h
    rw [← hr, Chan.requestTarget, Chan.record_eq, ← ho, h, hbefore]
    cases ch.note <;> rfl
  have hquiet : ∀ {y : Chan}, o.respond c tag = (y, []) → r = (y, before) := fun h => by
    rw [hrespond h, List.append_nil]
  have hstart : o.opening tag = opened := by rw [hopened, ho]; rfl
  have hclose : o.close c = (closed, ended) := by rw [hclosed, hended, ho]; rfl
  have hidle : o.closeIdle c = ({ closed with op := .idle }, ended) := by rw [Chan.closeIdle, hclose]
  have htgt : o.tgt = x := by rw [ho]
  have hack : o.ack = ch.ack := by rw [ho]
  have hwasOpen : o.opened = ch.opened := by rw [ho]
  have hop : o.op = ch.op := by rw [ho]
  have hcarried : o.carried = ch.carried := by rw [ho]
  have hresume : o.resume = ch.resume := by rw [ho]
  clear ho hopened hclosed hbefore hended hr
  rw [← htgt, ← hack, ← hwasOpen, ← hop, ← hcarried, ← hresume]
  refine ⟨fun h => ⟨fun hx => hquiet ?_, fun hx => hquiet ?_⟩, fun h => ⟨fun hx => hquiet ?_, fun hx => hrespond ?_⟩,
    fun h => hquiet (Chan.respond_commanded h), fun h hc hr => ⟨fun hx => hquiet ?_, fun hx => hquiet ?_⟩,
    fun h hc hr => ⟨fun hx => hquiet ?_, fun hx => hrespond ?_⟩,
    fun h => ⟨fun hx => hquiet ?_, fun hx hn => hquiet ?_⟩⟩
  · rw [Chan.respond_idle h, if_pos hx]
  · rw [Chan.respond_idle h, if_neg hx, hstart]; rfl
  · rw [Chan.respond_waiting h, if_neg hx]
  · rw [Chan.respond_waiting h, if_pos hx, hidle]
  · rw [Chan.respond_resumingIdle h hc hr, if_pos hx]
  · rw [Chan.respond_resumingIdle h hc hr, if_neg hx, hstart]
  · rw [Chan.respond_resumingZcWait h hc hr, if_neg hx]
  · rw [Chan.respond_resumingZcWait h hc hr, if_pos hx, hclose]
  · rw [Chan.respond_suspect h, if_pos hx]
  · rw [Chan.respond_suspect h, if_neg (by simp [hx, hn]), hstart]

/-! ### The operation in flight when the owner changes (R81, R82, R89) -/

section cancel
variable {c : ChanId} {k : OwnCause} {ch : Chan}

theorem Chan.cancel_of_unopened (h : ch.opened = false) : ch.cancel c k = (ch, []) := if_pos h

/-- No step is in flight in IDLE, nor where a phantom change resumes it. -/
theorem Chan.cancel_idle (h : ch.op = .idle ∨ (ch.op = .ackWait ∧ ch.carried = .nothing ∧ ch.resume = .idle)) :
    ch.cancel c k = (ch, []) := by
  rcases h with hop | ⟨hop, hc, hr⟩
  · rw [Chan.cancel, hop, ite_self]
  · rw [Chan.cancel, hop, hc, hr, ite_self]

/-- A step not yet commanded is abandoned; only SUSPECT stays as it is (R81). -/
theorem Chan.cancel_uncommanded (ho : ch.opened = true) (hop : ch.op = .zcWait ∨ ch.op = .lineWait ∨ ch.op = .suspect) :
    ch.cancel c k =
      ({ (ch.abandon c k).1 with op := if ch.op = .suspect then .suspect else .idle }, (ch.abandon c k).2) := by
  rw [Chan.cancel, if_neg (by simp [ho])]
  rcases hop with hop | hop | hop
  · rw [hop]; rfl
  · rw [hop]; rfl
  · have hsame : { (ch.abandon c k).1 with op := OpState.suspect } = (ch.abandon c k).1 := by rw [← hop]; rfl
    rw [hop, if_pos rfl, hsame]

/-- Under a phantom change that resumes a wait, the wait is abandoned (R89). -/
theorem Chan.cancel_resumingZcWait (ho : ch.opened = true) (hop : ch.op = .ackWait) (hc : ch.carried = .nothing)
    (hr : ch.resume = .zcWait) :
    ch.cancel c k = ({ (ch.abandon c k).1 with resume := .idle }, (ch.abandon c k).2) := by
  rw [Chan.cancel, if_neg (by simp [ho]), hop, hc, hr]

/-- A commanded step runs on under a cancel note (R82). -/
theorem Chan.cancel_commanded (ho : ch.opened = true)
    (h : ch.op = .settling ∨ (ch.op = .ackWait ∧ (ch.carried ≠ .nothing ∨ ch.resume = .settling))) :
    ch.cancel c k = (ch.noteCancel k, []) := by
  rw [Chan.cancel, if_neg (by simp [ho])]
  rcases h with hop | ⟨hop, hcarried⟩
  · rw [hop]
  · rw [hop]
    dsimp only
    split
    case h_1 hc hr | h_2 hc hr => simp [hc, hr] at hcarried
    all_goals rfl

end cancel

/-- Settles O27: what is not open or in IDLE stays, what is not commanded is abandoned, and what is commanded gets a note. -/
theorem ownerChangeCancels : Obligations.OwnerChangeCancels := fun _ _ _ =>
  ⟨Chan.cancel_of_unopened, Chan.cancel_uncommanded, Chan.cancel_resumingZcWait, Chan.cancel_idle, Chan.cancel_commanded⟩

end Sys2Proof.Machine
end

section
/-! PROOFS. A walk with no record in hand: where it stops, what it takes, and the controller's writes that come first (R96,
R164, R169, R170, R171, R173). -/

namespace Sys2Proof.Machine

/-! ### The controller's writes (R164) -/

theorem readByte_controllerWrite {m : List Host.Cell} (w : Host.Cell) (a : Nat) (hm : Memory.wf m) :
    readByte (controllerWrite m w.1 w.2) a = if 0x40 ≤ a ∧ a < 0x10000 ∧ w.1 = a then w.2 else readByte m a := by
  by_cases hw : w.1 = a
  · subst hw
    rw [controllerWrite]
    split
    · next h =>
        obtain ⟨hlow, hhigh⟩ := h
        rw [if_pos ⟨hlow, hhigh, rfl⟩, readByte_writeByte_same _ _ hm]
    · next h => rw [if_neg fun ⟨hlow, hhigh, _⟩ => h ⟨hlow, hhigh⟩]
  · rw [if_neg fun ⟨_, _, hn⟩ => hw hn]
    exact controllerWrite_other m w.2 (Ne.symm hw)

/-- A byte in the anchor and the request window takes the last value written to it; the others stand. -/
theorem readByte_controllerCells (ws : List Host.Cell) {m : List Host.Cell} (a : Nat) (hm : Memory.wf m) :
    readByte (controllerCells m ws) a =
      if 0x40 ≤ a ∧ a < 0x10000 then ((ws.reverse.find? fun w => w.1 == a).map Prod.snd).getD (readByte m a)
      else readByte m a := by
  induction ws generalizing m with
  | nil => simp [controllerCells]
  | cons w ws ih =>
    change readByte (controllerCells (controllerWrite m w.1 w.2) ws) a = _
    rw [ih (controllerWrite_wf w.1 w.2 hm), readByte_controllerWrite w a hm]
    by_cases ha : 0x40 ≤ a ∧ a < 0x10000
    · rw [if_pos ha, if_pos ha, List.reverse_cons, List.find?_append]
      cases ws.reverse.find? fun w => w.1 == a with
      | some v => rfl
      | none => by_cases hw : w.1 = a <;> simp [ha, hw]
    · rw [if_neg ha, if_neg ha, if_neg fun ⟨hlow, hhigh, _⟩ => ha ⟨hlow, hhigh⟩]

theorem controllerCells_append (ws vs : List Host.Cell) (m : List Host.Cell) :
    controllerCells m (ws ++ vs) = controllerCells (controllerCells m ws) vs := by
  induction ws generalizing m with
  | nil => rfl
  | cons w ws ih => exact ih _

/-- The controller's writes of bytes at rising offsets, one by one. -/
def byteCells (a : Nat) (bs : List Byte) : List Host.Cell := (List.range bs.length).map fun j => (a + j, bs.getD j 0#8)

theorem byteCells_cons (a : Nat) (b : Byte) (bs : List Byte) : byteCells a (b :: bs) = (a, b) :: byteCells (a + 1) bs := by
  simp [byteCells, List.range_succ_eq_map, Nat.add_assoc, Nat.add_comm 1]

theorem lt_of_mem_byteCells {a : Nat} {bs : List Byte} {w : Host.Cell} (hw : w ∈ byteCells a bs) : w.1 < a + bs.length := by
  obtain ⟨j, hj, rfl⟩ := List.mem_map.1 hw
  exact Nat.add_lt_add_left (List.mem_range.1 hj) a

theorem controllerCells_byteCells (bs : List Byte) (m : List Host.Cell) (a : Nat) :
    controllerCells m (byteCells a bs) = controllerWrites m a bs := by
  induction bs generalizing m a with
  | nil => rfl
  | cons b bs ih =>
    rw [byteCells_cons]
    exact ih _ _

/-! ### One pass of a walk (R170) -/

section walk
variable {s : State}

theorem exec_chainWalk {ws : List Host.Cell} (h : ∀ w ∈ ws, w.1 < 0x20000) :
    exec (.chainWalk ws) s = .next (s.setEx { s.ex with mem := controllerCells s.ex.mem ws }).walkStep := by
  have hnone : (ws.find? fun w => decide (Config.memorySize ≤ w.1)) = none :=
    List.find?_eq_none.2 fun w hw => by rw [decide_eq_true_eq]; exact Nat.not_le.2 (h w hw)
  rw [exec, execChainWalk, hnone]

/-- Without writes CHAIN_WALK is the pass alone. -/
theorem exec_chainWalk_nil : exec (.chainWalk []) s = .next s.walkStep := rfl

/-- The controller's writes come before the pass (R164). -/
theorem exec_chainWalk_writesFirst {ws : List Host.Cell} (h : ∀ w ∈ ws, w.1 < 0x20000) : exec (.chainWalk ws) s =
    exec (.chainWalk []) (s.setEx { s.ex with mem := controllerCells s.ex.mem ws }) := by
  rw [exec_chainWalk h, exec_chainWalk_nil]

theorem exec_chainWalk_outside {w : Host.Cell} (rest : List Host.Cell) (h : 0x20000 ≤ w.1) :
    exec (.chainWalk (w :: rest)) s = .fault (.outsideExchangeMemory w.1) := by
  have hsome : ((w :: rest).find? fun w => decide (Config.memorySize ≤ w.1)) = some w :=
    List.find?_cons_of_pos (decide_eq_true h)
  rw [exec, execChainWalk, hsome]

theorem State.walkStep_idle (h : s.ex.walking = false ∨ s.ex.inHand.isSome = true) : s.walkStep = s := by
  refine if_neg ?_
  rcases h with h | h
  · simp [h]
  · simp [Option.isNone_eq_false_iff.2 h]

section runs
variable (hwalk : s.ex.walking = true) (hin : s.ex.inHand = none) {n : Nat} (hn : nextField s.ex.mem s.ex.cursor = n)
include hwalk hin hn

/-- What a walk does at the link it reads, with no record in hand. -/
theorem State.walkStep_eq : s.walkStep =
    if goodOffset n = false then s.setEx (s.ex.deadEnd n)
    else if offered s.ex.mem n = false then s.setEx s.ex.stopWalk
    else s.serveKind (readHead s.ex.mem n) := by
  subst hn
  exact if_pos (by rw [hwalk, hin]; rfl)

theorem State.walkStep_badLink (hbad : goodOffset n = false) : s.walkStep = s.setEx (s.ex.deadEnd n) :=
  (State.walkStep_eq hwalk hin hn).trans (if_pos hbad)

theorem State.walkStep_unoffered (hgood : goodOffset n = true) (hoff : readByte s.ex.mem n ≠ 1#8) :
    s.walkStep = s.setEx s.ex.stopWalk := by
  rw [State.walkStep_eq hwalk hin hn, if_neg (by simp [hgood])]
  exact if_pos (beq_false_of_ne hoff)

theorem State.walkStep_takes (hgood : goodOffset n = true) (hoff : readByte s.ex.mem n = 1#8) :
    s.walkStep = s.serveKind (readHead s.ex.mem n) := by
  rw [State.walkStep_eq hwalk hin hn, if_neg (by simp [hgood])]
  exact if_neg (by simp [offered, hoff])

end runs

/-- A READ_CHANNEL record that passes the checks is answered at its take (R96). -/
theorem State.serveKind_readChannel {t : TakeHead} {c : ChanId} {src : Source} (hk : t.kind = 4#8)
    (hc : decodeChannel t.channel = some c) (hs : decodeSource t.source = some src) :
    s.serveKind t = s.finish t .ok (some (s.channelReply c)) := by
  rw [State.serveKind, hk]
  change s.withChan t (fun c _ => s.finish t .ok (some (s.channelReply c))) = _
  rw [State.withChan, hc, hs]

/-- A record of no kind is refused (R174). -/
theorem State.serveKind_unknown {t : TakeHead} (h : kindKnown t.kind = false) :
    s.serveKind t = s.finish t .badKind none := by
  rw [State.serveKind]
  split
  case h_18 => rfl
  all_goals next e => simp [kindKnown, e] at h

end walk

theorem Exchange.stopWalk_eq (x : Exchange) : x.stopWalk =
    if x.again = true ∧ x.enable = true then { x with again := false } else { x with walking := false } := by
  simp [Exchange.stopWalk]

/-- At a bad link the walk stops with CHAIN set (R170). -/
theorem Exchange.deadEnd_of_ne (x : Exchange) {n : Nat} (h : n ≠ 0) :
    x.deadEnd n = { x.stopWalk with sticky := { x.stopWalk.sticky with chain := true } } := by
  rw [Exchange.deadEnd, if_neg h, Exchange.stopWalk_eq, Exchange.stopWalk_eq]
  split <;> rfl

/-! ### The fields of a record as the controller writes it (R173) -/

theorem readBytes_eq_of_getD {m : List Host.Cell} {a : Nat} (bs : List Byte)
    (h : ∀ j, j < bs.length → readByte m (a + j) = bs.getD j 0#8) : readBytes m a bs.length = bs := by
  induction bs generalizing a with
  | nil => rfl
  | cons b bs ih =>
    refine congrArg₂ List.cons (h 0 (Nat.succ_pos _)) (ih fun j hj => ?_)
    rw [Nat.add_assoc, Nat.add_comm 1]
    exact h (j + 1) (Nat.succ_lt_succ hj)

theorem readHalf_of_bytes {m : List Host.Cell} {a : Nat} {v : Half} (h : readBytes m a 2 = halfBytes v) :
    readHalf m a = v := by
  obtain ⟨h0, h1, -⟩ : readByte m a = v.extractLsb' 0 8 ∧ readByte m (a + 1) = v.extractLsb' 8 8 ∧ True := by
    simpa [readBytes, halfBytes] using h
  rw [readHalf, h0, h1]
  exact (BitVec.extractLsb'_append_extractLsb'_eq_extractLsb' rfl).trans BitVec.extractLsb'_eq_self

theorem readWord_of_bytes {m : List Host.Cell} {a : Nat} {v : Word} (h : readBytes m a 4 = wordBytes v) :
    readWord m a = v := by
  obtain ⟨hlow, hhigh⟩ : readBytes m a 2 = halfBytes (v.extractLsb' 0 16) ∧
      readBytes m (a + 2) 2 = halfBytes (v.extractLsb' 16 16) := List.append_inj h rfl
  rw [readWord, readHalf_of_bytes hlow, readHalf_of_bytes hhigh]
  exact (BitVec.extractLsb'_append_extractLsb'_eq_extractLsb' rfl).trans BitVec.extractLsb'_eq_self

theorem readMask_of_bytes {m : List Host.Cell} {a : Nat} {v : ChanMask} (h : readBytes m a 8 = maskBytes v) :
    readMask m a = v := by
  obtain ⟨hlow, hhigh⟩ : readBytes m a 4 = wordBytes (v.extractLsb' 0 32) ∧
      readBytes m (a + 4) 4 = wordBytes (v.extractLsb' 32 32) := List.append_inj h rfl
  rw [readMask, readWord_of_bytes hlow, readWord_of_bytes hhigh]
  exact (BitVec.extractLsb'_append_extractLsb'_eq_extractLsb' rfl).trans BitVec.extractLsb'_eq_self

section offered
variable {s : State} {h : ReqHead} (hr : s.Ready h) {kind : Byte} {args : List Byte} (ha : args.length ≤ 16)
include hr

theorem State.Ready.mem_wf : Memory.wf s.ex.mem := by
  obtain ⟨-, -, -, -, -, -, hmem, -⟩ := hr
  exact hmem

theorem State.Ready.waiting : s.ex.walking = true ∧ s.ex.inHand = none := by
  obtain ⟨hat, -⟩ := hr
  simp only [Exchange.atTail, Bool.and_eq_true, Option.isNone_iff_eq_none] at hat
  exact hat.1

theorem State.Ready.off_range : h.off.toNat % 64 = 0 ∧ 0x80 ≤ h.off.toNat ∧ h.off.toNat ≤ 0xFFC0 := by
  obtain ⟨-, hwf, -⟩ := hr
  exact (goodOffset_iff _).1 hwf

/-- The cursor stands at the anchor or at a record (R168). -/
theorem State.Ready.cursor_range : 0x40 ≤ s.ex.cursor ∧ s.ex.cursor ≤ 0xFFC0 := by
  obtain ⟨-, -, -, -, hcursor | hcursor, -⟩ := hr
  · rw [hcursor]; decide
  · obtain ⟨-, hlow, hhigh⟩ := (goodOffset_iff _).1 hcursor
    omega

/-- The memory after the offer: the record whole, and then its link at the cursor (R172, R173). -/
theorem State.Ready.offer_mem : (s.ex.offer h kind args).mem =
    controllerWrites (controllerWrites s.ex.mem h.off.toNat (recordBytes h kind args)) (s.ex.cursor + 8)
      (wordBytes h.off) := by
  obtain ⟨htail, hwf, -⟩ := hr
  simp only [Exchange.offer, hwf, if_true, Exchange.tail_of_atTail htail]

/-- The link at the end of the chain leads to the offered record. -/
theorem State.Ready.nextField_offer : nextField (s.ex.offer h kind args).mem s.ex.cursor = h.off.toNat := by
  obtain ⟨hlow, hhigh⟩ := hr.cursor_range
  refine congrArg BitVec.toNat (readWord_of_bytes ?_)
  rw [hr.offer_mem, controllerWrites_eq (wordBytes h.off) _ (hlow.trans (Nat.le_add_right _ 8))
    (show s.ex.cursor + 8 + 4 ≤ 0x10000 by omega)]
  exact readBytes_writeBytes_same (wordBytes h.off) _ (controllerWrites_wf _ _ hr.mem_wf)

include ha

/-- A field of the record, outside its next field, reads as the controller wrote it. -/
theorem State.Ready.readBytes_offer {k : Nat} (bs : List Byte) (hk : 12 ≤ k ∨ k + bs.length ≤ 8)
    (hbs : ((recordBytes h kind args).drop k).take bs.length = bs) :
    readBytes (s.ex.offer h kind args).mem (h.off.toNat + k) bs.length = bs := by
  refine readBytes_eq_of_getD bs fun j hj => ?_
  have hlen := congrArg List.length hbs
  rw [List.length_take, List.length_drop, recordBytes_length h kind ha] at hlen
  have htail := hr.tail_aligned
  have hoff := hr.off_range.1
  rw [Exchange.offer_record kind ((goodOffset_iff _).2 hr.off_range) hr.mem_wf ha (i := k + j) (by omega)
    (Nat.add_assoc ..) (by omega)]
  conv_rhs => rw [← hbs]
  simp [List.getD_eq_getElem?_getD, hj]

theorem State.Ready.readByte_offer (k : Nat) {b : Byte} (hbs : ((recordBytes h kind args).drop k).take 1 = [b])
    (hk : 12 ≤ k ∨ k + 1 ≤ 8 := by decide) : readByte (s.ex.offer h kind args).mem (h.off.toNat + k) = b :=
  (List.cons.inj (hr.readBytes_offer ha [b] hk hbs)).1

theorem State.Ready.readHalf_offer (k : Nat) {v : Half} (hbs : ((recordBytes h kind args).drop k).take 2 = halfBytes v)
    (hk : 12 ≤ k ∨ k + 2 ≤ 8 := by decide) : readHalf (s.ex.offer h kind args).mem (h.off.toNat + k) = v :=
  readHalf_of_bytes (hr.readBytes_offer ha (halfBytes v) hk hbs)

theorem State.Ready.readWord_offer (k : Nat) {v : Word} (hbs : ((recordBytes h kind args).drop k).take 4 = wordBytes v)
    (hk : 12 ≤ k ∨ k + 4 ≤ 8 := by decide) : readWord (s.ex.offer h kind args).mem (h.off.toNat + k) = v :=
  readWord_of_bytes (hr.readBytes_offer ha (wordBytes v) hk hbs)

theorem State.Ready.readMask_offer (k : Nat) {v : ChanMask} (hbs : ((recordBytes h kind args).drop k).take 8 = maskBytes v)
    (hk : 12 ≤ k ∨ k + 8 ≤ 8 := by decide) : readMask (s.ex.offer h kind args).mem (h.off.toNat + k) = v :=
  readMask_of_bytes (hr.readBytes_offer ha (maskBytes v) hk hbs)

/-- The header that the take reads is the one the controller wrote. -/
theorem State.Ready.readHead_offer : readHead (s.ex.offer h kind args).mem h.off.toNat = takeHead h kind := by
  rw [readHead, hr.readByte_offer ha 1 rfl, hr.readByte_offer ha 2 rfl, hr.readHalf_offer ha 4 rfl,
    hr.readByte_offer ha 6 rfl, hr.readByte_offer ha 7 rfl]
  rfl

end offered

/-! ### A record of any kind, written byte by byte (R173) -/

/-- A walk takes the record as the command does, once the controller has written it whole and linked it at the cursor. -/
def State.TakenByWalk (s : State) (i : Instr) (h : ReqHead) (kind : Byte) (args : List Byte) : Prop :=
  exec i s = exec (.chainWalk
    (byteCells h.off.toNat (recordBytes h kind args) ++ byteCells (s.ex.cursor + 8) (wordBytes h.off))) s

section taken
variable {s : State} {h : ReqHead} (hr : s.Ready h) {i : Instr} {kind : Byte} {args : List Byte}
include hr

/-- The controller's writes, one by one, are the offer of the record. -/
theorem State.Ready.controllerCells_offer : controllerCells s.ex.mem
    (byteCells h.off.toNat (recordBytes h kind args) ++ byteCells (s.ex.cursor + 8) (wordBytes h.off)) =
      (s.ex.offer h kind args).mem := by
  rw [controllerCells_append, controllerCells_byteCells, controllerCells_byteCells, hr.offer_mem]

/-- A kind whose command serves the record as its bytes in memory say is taken alike by a walk. -/
theorem State.Ready.takenByWalk {serve : State → TakeHead → State} (hi : exec i s = s.request h kind args serve)
    (ha : args.length ≤ 16) (hserve : (s.setEx (s.ex.offer h kind args)).serveKind (takeHead h kind) =
      serve (s.setEx (s.ex.offer h kind args)) (takeHead h kind)) : s.TakenByWalk i h kind args := by
  obtain ⟨hwalk, hin⟩ := hr.waiting
  have hinside : ∀ w ∈ byteCells h.off.toNat (recordBytes h kind args) ++ byteCells (s.ex.cursor + 8) (wordBytes h.off),
      w.1 < 0x20000 := by
    obtain ⟨-, -, hoff⟩ := hr.off_range
    obtain ⟨-, hcursor⟩ := hr.cursor_range
    refine fun w hw => (List.mem_append.1 hw).elim (fun hw => ?_) fun hw => ?_
    · have hlt := lt_of_mem_byteCells hw
      rw [recordBytes_length h kind ha] at hlt
      omega
    · have hlt := lt_of_mem_byteCells hw
      rw [wordBytes_length] at hlt
      omega
  have hoffered : readByte (s.ex.offer h kind args).mem h.off.toNat = 1#8 := by
    rw [← Nat.add_zero h.off.toNat]
    exact hr.readByte_offer ha 0 rfl
  have hwalks : (s.setEx (s.ex.offer h kind args)).walkStep =
      (s.setEx (s.ex.offer h kind args)).serveKind (takeHead h kind) := by
    rw [← hr.readHead_offer ha]
    exact State.walkStep_takes (s := s.setEx (s.ex.offer h kind args)) hwalk hin hr.nextField_offer
      ((goodOffset_iff _).2 hr.off_range) hoffered
  rw [State.TakenByWalk, hi, hr.request, exec_chainWalk hinside, hr.controllerCells_offer, ← hserve, ← hwalks,
    ← Exchange.offer_frame]

end taken

section kinds
variable {s : State} {h : ReqHead} (hr : s.Ready h)
include hr

/-- BAD_KIND serves a known kind by its own rule, and refuses the others as a walk does (R174). -/
theorem takenByWalk_badKind (kind : Byte) : s.TakenByWalk (.badKind h kind) h kind [] := by
  refine hr.takenByWalk (serve := fun s t => if kindKnown kind then s.serveKind t else s.finish t .badKind none) rfl
    (Nat.zero_le _) ?_
  cases hk : kindKnown kind with
  | true => exact (if_pos rfl).symm
  | false => exact State.serveKind_unknown hk

/-- The kinds with no arguments. -/
theorem takenByWalk_bare {i : Instr} {kind : Byte} {serve : State → TakeHead → State}
    (hi : exec i s = s.request h kind [] serve)
    (hkind : ∀ u : State, u.serveKind (takeHead h kind) = serve u (takeHead h kind)) : s.TakenByWalk i h kind [] :=
  hr.takenByWalk hi (Nat.zero_le _) (hkind _)

/-- The kinds with one byte. -/
theorem takenByWalk_byte {i : Instr} {kind : Byte} {serve : State → TakeHead → Byte → State} {v : Byte}
    (hi : exec i s = s.request h kind [v] fun u t => serve u t v)
    (hkind : ∀ u : State, u.serveKind (takeHead h kind) =
      serve u (takeHead h kind) (readByte u.ex.mem (h.off.toNat + 0x10))) : s.TakenByWalk i h kind [v] := by
  have hlen : [v].length ≤ 16 := Nat.le_of_ble_eq_true rfl
  refine hr.takenByWalk hi hlen ?_
  rw [hkind, State.setEx_ex, hr.readByte_offer hlen 0x10 rfl]

/-- The kinds with two bytes. -/
theorem takenByWalk_bytes {i : Instr} {kind : Byte} {serve : State → TakeHead → Byte → Byte → State} {v w : Byte}
    (hi : exec i s = s.request h kind [v, w] fun u t => serve u t v w)
    (hkind : ∀ u : State, u.serveKind (takeHead h kind) = serve u (takeHead h kind)
      (readByte u.ex.mem (h.off.toNat + 0x10)) (readByte u.ex.mem (h.off.toNat + 0x11))) :
    s.TakenByWalk i h kind [v, w] := by
  have hlen : [v, w].length ≤ 16 := Nat.le_of_ble_eq_true rfl
  refine hr.takenByWalk hi hlen ?_
  rw [hkind, State.setEx_ex, hr.readByte_offer hlen 0x10 rfl, hr.readByte_offer hlen 0x11 rfl]

/-- The kinds with one 16-bit field. -/
theorem takenByWalk_half {i : Instr} {kind : Byte} {serve : State → TakeHead → Half → State} {v : Half}
    (hi : exec i s = s.request h kind (halfBytes v) fun u t => serve u t v)
    (hkind : ∀ u : State, u.serveKind (takeHead h kind) =
      serve u (takeHead h kind) (readHalf u.ex.mem (h.off.toNat + 0x10))) : s.TakenByWalk i h kind (halfBytes v) := by
  have hlen : (halfBytes v).length ≤ 16 := Nat.le_of_ble_eq_true rfl
  refine hr.takenByWalk hi hlen ?_
  rw [hkind, State.setEx_ex, hr.readHalf_offer hlen 0x10 rfl]

theorem takenByWalk_loadSlotmap (map : Word) : s.TakenByWalk (.loadSlotmap h map) h 13#8 (wordBytes map) :=
  have hlen : (wordBytes map).length ≤ 16 := Nat.le_of_ble_eq_true rfl
  hr.takenByWalk (serve := fun u t => u.serveLoadSlotmap t map) rfl hlen
    (congrArg (State.serveLoadSlotmap _ _) (hr.readWord_offer hlen 0x10 rfl))

theorem takenByWalk_swap (mask : ChanMask) : s.TakenByWalk (.swap h mask) h 15#8 (maskBytes mask) :=
  have hlen : (maskBytes mask).length ≤ 16 := Nat.le_of_ble_eq_true rfl
  hr.takenByWalk (serve := fun u t => u.serveSwap t mask) rfl hlen
    (congrArg (State.serveSwap _ _) (hr.readMask_offer hlen 0x10 rfl))

theorem takenByWalk_loadShadow (table : Word) (first count : Byte) :
    s.TakenByWalk (.loadShadow h table first count) h 14#8 (wordBytes table ++ [first, count]) := by
  have hlen : (wordBytes table ++ [first, count]).length ≤ 16 := Nat.le_of_ble_eq_true rfl
  refine hr.takenByWalk (serve := fun u t => u.serveLoadShadow t table first count) rfl hlen ?_
  change State.serveLoadShadow _ _ (readWord _ (h.off.toNat + 0x10)) (readByte _ (h.off.toNat + 0x14))
    (readByte _ (h.off.toNat + 0x15)) = _
  rw [State.setEx_ex, hr.readWord_offer hlen 0x10 rfl, hr.readByte_offer hlen 0x14 rfl, hr.readByte_offer hlen 0x15 rfl]

theorem takenByWalk_setGuard (enable : Byte) (threshold hold floor rest : Half) :
    s.TakenByWalk (.setGuard h enable threshold hold floor rest) h 6#8
      ([enable, 0#8] ++ halfBytes threshold ++ halfBytes hold ++ halfBytes floor ++ halfBytes rest) := by
  have hlen : ([enable, 0#8] ++ halfBytes threshold ++ halfBytes hold ++ halfBytes floor ++ halfBytes rest).length ≤ 16 :=
    Nat.le_of_ble_eq_true rfl
  refine hr.takenByWalk (serve := fun u t => u.serveSetGuard t enable threshold hold floor rest) rfl hlen ?_
  change State.serveSetGuard _ _ (readByte _ (h.off.toNat + 0x10)) (readHalf _ (h.off.toNat + 0x12))
    (readHalf _ (h.off.toNat + 0x14)) (readHalf _ (h.off.toNat + 0x16)) (readHalf _ (h.off.toNat + 0x18)) = _
  rw [State.setEx_ex, hr.readByte_offer hlen 0x10 rfl, hr.readHalf_offer hlen 0x12 rfl, hr.readHalf_offer hlen 0x14 rfl,
    hr.readHalf_offer hlen 0x16 rfl, hr.readHalf_offer hlen 0x18 rfl]

theorem takenByWalk_setExchange (select : Byte) (threshold poll meter : Half) (unitId : Byte) :
    s.TakenByWalk (.setExchange h select threshold poll meter unitId) h 17#8
      ([select, 0#8] ++ halfBytes threshold ++ halfBytes poll ++ halfBytes meter ++ [unitId]) := by
  have hlen : ([select, 0#8] ++ halfBytes threshold ++ halfBytes poll ++ halfBytes meter ++ [unitId]).length ≤ 16 :=
    Nat.le_of_ble_eq_true rfl
  refine hr.takenByWalk (serve := fun u t => u.serveSetExchange t select threshold poll meter unitId) rfl hlen ?_
  change State.serveSetExchange _ _ (readByte _ (h.off.toNat + 0x10)) (readHalf _ (h.off.toNat + 0x12))
    (readHalf _ (h.off.toNat + 0x14)) (readHalf _ (h.off.toNat + 0x16)) (readByte _ (h.off.toNat + 0x18)) = _
  rw [State.setEx_ex, hr.readByte_offer hlen 0x10 rfl, hr.readHalf_offer hlen 0x12 rfl, hr.readHalf_offer hlen 0x14 rfl,
    hr.readHalf_offer hlen 0x16 rfl, hr.readByte_offer hlen 0x18 rfl]

end kinds

/-! ### The walk's stops and its take, in the statement's terms -/

section steps
variable {s : State} (hwalk : s.ex.walking = true) (hin : s.ex.inHand = none) {n : Nat}
  (hn : nextField s.ex.mem s.ex.cursor = n)
include hwalk hin hn

/-- The end of the chain (R170 step 2). -/
theorem exec_chainWalk_end (h : n = 0) : exec (.chainWalk []) s = .next (s.setEx s.ex.stopWalk) := by
  subst h
  rw [exec_chainWalk_nil, State.walkStep_badLink hwalk hin hn rfl, Exchange.deadEnd, if_pos rfl]

/-- A bad link (R170 step 3). -/
theorem exec_chainWalk_badLink (h : n ≠ 0) (hbad : ¬(n % 64 = 0 ∧ 0x80 ≤ n ∧ n ≤ 0xFFC0)) : exec (.chainWalk []) s =
    .next (s.setEx { s.ex.stopWalk with sticky := { s.ex.stopWalk.sticky with chain := true } }) := by
  have hgood : goodOffset n = false := Bool.eq_false_iff.2 fun hg => hbad ((goodOffset_iff n).1 hg)
  rw [exec_chainWalk_nil, State.walkStep_badLink hwalk hin hn hgood, Exchange.deadEnd_of_ne _ h]

/-- A READ_CHANNEL record that waits at the link is taken, answered, and becomes the cursor record (R96, R170, R171). -/
theorem exec_chainWalk_readChannel {c : ChanId} {src : Source} (hgood : goodOffset n = true)
    (hoff : readByte s.ex.mem n = 1#8) (hkind : readByte s.ex.mem (n + 1) = 4#8)
    (hc : decodeChannel (readByte s.ex.mem (n + 6)) = some c) (hs : decodeSource (readByte s.ex.mem (n + 2)) = some src) :
    exec (.chainWalk []) s = .next (s.finish (readHead s.ex.mem n) .ok (some (s.channelReply c))) := by
  rw [exec_chainWalk_nil, State.walkStep_takes hwalk hin hn hgood hoff]
  exact congrArg Host.Outcome.next (State.serveKind_readChannel hkind hc hs)

end steps

theorem padTo_of_length {n : Nat} {bs : List Byte} (h : bs.length = n) : padTo n bs = bs := by simp [padTo, h]

/-- A take that ends at once in an enabled exchange with no clear waiting moves the cursor to the record, and stores its
outcome there (R170, R171). -/
theorem Exchange.finish_answers {x : Exchange} (t : TakeHead) (r : Result) {bs : List Byte} (hin : x.inHand = none)
    (hen : x.enable = true) (hclear : x.clearAsked = false) (hmem : Memory.wf x.mem) (hlen : bs.length = 32) :
    ∃ m, x.finish t r (some bs) = { x with cursor := t.off, mem := m } ∧
      readBytes m t.off 4 = [2#8, t.kind, t.source, r.code] ∧ readBytes m (t.off + 0x20) 32 = bs ∧
      x.StoresOutcome t.off { x with cursor := t.off, mem := m } := by
  obtain ⟨hheader, hreply⟩ := Exchange.writeOutcome_reads t r hmem hlen.le
  rw [padTo_of_length hlen] at hreply
  refine ⟨_, ?_, hheader, hreply, Exchange.writeOutcome_stores t r hlen.le⟩
  rw [Exchange.finish_eq t r _ hclear, hen, Bool.and_true, Bool.and_true, ← hin]

theorem State.channelReply_length (s : State) (c : ChanId) : (s.channelReply c).length = 32 := rfl

/-- Settles O38: one pass of a walk, link by link; the controller's writes byte by byte; and each kind's record, whose fields
read back as they were written. -/
theorem walkTakesOrStops : Obligations.WalkTakesOrStops := by
  refine ⟨fun s x hx => ?_, fun s w rest hw => exec_chainWalk_outside rest hw, ?_⟩
  · subst hx
    refine ⟨fun h => congrArg Host.Outcome.next (State.walkStep_idle h), fun hwalk hin n hn y hy => ?_,
      fun ws hws hmem => ⟨_, exec_chainWalk_writesFirst hws, controllerCells_wf ws hmem,
        fun a => readByte_controllerCells ws a hmem⟩⟩
    rw [← Exchange.stopWalk_eq] at hy
    subst hy
    refine ⟨exec_chainWalk_end hwalk hin hn.symm, exec_chainWalk_badLink hwalk hin hn.symm,
      fun h0 h1 h2 hoff => congrArg Host.Outcome.next
        (State.walkStep_unoffered hwalk hin hn.symm ((goodOffset_iff n).2 ⟨h0, h1, h2⟩) hoff),
      fun h0 h1 h2 hoff hkind c src hc hs hen hclear hmem =>
        ⟨_, exec_chainWalk_readChannel hwalk hin hn.symm ((goodOffset_iff n).2 ⟨h0, h1, h2⟩) hoff hkind hc hs, rfl, ?_⟩⟩
    obtain ⟨m, hfinish, hheader, hreply, hstores⟩ :=
      Exchange.finish_answers (readHead s.ex.mem n) .ok hin hen hclear hmem (s.channelReply_length c)
    rw [State.finish_ex, hfinish, ← hkind]
    exact ⟨rfl, hheader, hreply, hstores⟩
  · intro s h k b1 b2 n1 n2 n3 n4 w m cells hr hcells
    obtain rfl : cells = byteCells := funext fun a => funext (hcells a)
    simp only [← halfBytes_little, ← wordBytes_little, ← maskBytes_little]
    change ∀ p : Instr × Byte × List Byte, p ∈ _ → s.TakenByWalk p.1 h p.2.1 p.2.2
    simp only [List.forall_mem_cons, List.not_mem_nil, false_implies, implies_true, and_true]
    exact ⟨takenByWalk_badKind hr k, takenByWalk_half hr (serve := State.serveSetAnalog) rfl fun _ => rfl,
      takenByWalk_byte hr (serve := State.serveSetPad) rfl fun _ => rfl,
      takenByWalk_byte hr (serve := State.serveSetPhantom) rfl fun _ => rfl,
      takenByWalk_bare hr (serve := State.serveReadChannel) rfl fun _ => rfl,
      takenByWalk_bare hr (serve := State.serveResync) rfl fun _ => rfl,
      takenByWalk_setGuard hr b1 n1 n2 n3 n4,
      takenByWalk_half hr (serve := State.serveSetTrim) rfl fun _ => rfl,
      takenByWalk_byte hr (serve := State.serveSetMode) rfl fun _ => rfl,
      takenByWalk_bytes hr (serve := State.serveSetFlags) rfl fun _ => rfl,
      takenByWalk_bare hr (serve := State.serveClaim) rfl fun _ => rfl,
      takenByWalk_bare hr (serve := State.serveRelease) rfl fun _ => rfl,
      takenByWalk_bytes hr (serve := State.serveSetFeed) rfl fun _ => rfl,
      takenByWalk_loadSlotmap hr w, takenByWalk_loadShadow hr w b1 b2, takenByWalk_swap hr m,
      takenByWalk_byte hr (serve := State.serveSetClock) rfl fun _ => rfl,
      takenByWalk_setExchange hr b1 n1 n2 n3 b2⟩

end Sys2Proof.Machine
end

section
/-! PROOFS. The boundary work of the Meter and Guard Unit, channel by channel: what the guards do, and how a block joins its
interval (R98, R100, R107 to R111). -/

namespace Sys2Proof.Machine

/-! ### One channel -/

/-- What the unit's boundary work reads and writes of one channel. -/
structure ChannelMeter where
  block : BlockRecord
  interval : IntervalRecord
  guard : Guard
  chan : Chan

def State.meterOf (s : State) (c : ChanId) : ChannelMeter :=
  { block := s.blocks[c], interval := s.intervals[c], guard := s.guard c, chan := s.chan c }

/-- One channel's part replaced, and the events of its guard handed over. -/
def State.putMeter (s : State) (c : ChanId) (r : ChannelMeter × List Event) : State :=
  { s with
    blocks := upd s.blocks c r.1.block, intervals := upd s.intervals c r.1.interval, guards := upd s.guards c r.1.guard
    chans := upd s.chans c r.1.chan, ex := s.ex.joinAll s.frame r.2 }

/-- The target of a guard that acts: one preamp step below the applied code, but no higher than the target was (R108). -/
def Chan.loweredTarget (ch : Chan) : Setting := { ch.tgt with analog := min ch.tgt.analog (ch.app.analog - 6) }

/-- The guard acts, its counters being those of the boundary (R108). -/
def ChannelMeter.step (c : ChanId) (m : ChannelMeter) : ChannelMeter × List Event :=
  ({ m with
      guard := { m.guard with restLeft := m.guard.rest, overCount := 0 }
      chan := (m.chan.guardTarget c m.chan.loweredTarget).1
      interval := { m.interval with guarded := true } },
    (m.chan.guardTarget c m.chan.loweredTarget).2 ++ [.guard c m.guard.overCount m.block.code m.chan.app.analog
      m.chan.tgt.analog m.chan.loweredTarget.analog m.guard.rest])

/-- The guard would act below its floor, its counters being those of the boundary (R109). -/
def ChannelMeter.atFloor (c : ChanId) (m : ChannelMeter) : ChannelMeter × List Event :=
  ({ m with guard := { m.guard with floorReported := true } },
    if m.guard.floorReported then [] else [.guardFloor c m.guard.overCount m.block.code m.chan.app.analog m.guard.floor])

/-- The guard's counters at a boundary (R107). -/
def ChannelMeter.counted (m : ChannelMeter) : ChannelMeter := { m with guard := m.guard.count m.block.code }

/-- What the guard makes of its channel, with its events (R107 to R109). -/
def ChannelMeter.guarded (c : ChanId) (m : ChannelMeter) : ChannelMeter × List Event :=
  if m.guard.enable && !m.chan.startup then
    if m.counted.guard.acts then
      if (m.counted.guard.floor : Int) ≤ m.chan.app.analog - 6 then m.counted.step c else m.counted.atFloor c
    else (m.counted, [])
  else (m, [])

/-- The block merged into the interval and cleared (R98, R100). -/
def ChannelMeter.completed (m : ChannelMeter) : ChannelMeter :=
  { m with interval := m.interval.merge m.block, block := resetBlock }

/-- What a boundary makes of a channel, with its guard's events (R98). -/
def ChannelMeter.boundary (c : ChanId) (m : ChannelMeter) : ChannelMeter × List Event :=
  ((m.guarded c).1.completed, (m.guarded c).2)

section channel
variable (s : State) (c : ChanId)

theorem State.putMeter_meterOf (d : ChanId) (r : ChannelMeter × List Event) :
    (s.putMeter c r).meterOf d = if c = d then r.1 else s.meterOf d := by
  by_cases h : c = d
  · subst h
    simp only [State.meterOf, State.putMeter, State.guard, State.chan, Fin.getElem_fin, upd_same, if_true]
  · simp only [State.meterOf, State.putMeter, State.guard, State.chan, Fin.getElem_fin, upd_other _ _ h, h, if_false]

theorem State.putMeter_putMeter (p q : ChannelMeter × List Event) :
    (s.putMeter c p).putMeter c q = s.putMeter c (q.1, p.2 ++ q.2) := by
  simp only [State.putMeter, upd_upd, Exchange.joinAll_append]

theorem State.setGuard_eq_putMeter (g : Guard) :
    s.setGuard c g = s.putMeter c ({ s.meterOf c with guard := g }, []) := by
  simp only [State.setGuard, State.putMeter, State.meterOf, State.chan, Fin.getElem_fin, upd_self, Exchange.joinAll_nil]

theorem State.putMeter_meterOf_self : s.putMeter c (s.meterOf c, []) = s := by
  simp only [State.putMeter, State.meterOf, State.guard, State.chan, Fin.getElem_fin, upd_self, Exchange.joinAll_nil]

theorem State.guardStep_eq : s.guardStep c s.blocks[c].code = s.putMeter c ((s.meterOf c).step c) := by
  simp only [State.guardStep, State.putChan, State.setGuard, Chan.guardTarget_level, if_true, State.putMeter, State.meterOf,
    ChannelMeter.step, Fin.getElem_fin, upd_self, Chan.loweredTarget]

theorem State.guardFloor_eq : s.guardFloor c s.blocks[c].code = s.putMeter c ((s.meterOf c).atFloor c) := by
  unfold State.guardFloor ChannelMeter.atFloor
  dsimp only
  split
  · next h =>
    have hguard : (s.meterOf c).guard.floorReported = true := h
    rw [if_pos hguard, ← hguard]
    exact (s.putMeter_meterOf_self c).symm
  · next h =>
    have hguard : ¬ (s.meterOf c).guard.floorReported = true := h
    rw [if_neg hguard, State.setGuard_eq_putMeter]
    rfl

/-- The guard reads its own channel alone, and touches beside it only the events. -/
theorem State.guardChan_eq : s.guardChan c s.blocks[c].code = s.putMeter c ((s.meterOf c).guarded c) := by
  have hcounted : s.setGuard c ((s.guard c).count s.blocks[c].code) = s.putMeter c ((s.meterOf c).counted, []) :=
    s.setGuard_eq_putMeter c _
  generalize hu : s.putMeter c ((s.meterOf c).counted, []) = u at hcounted
  have hmeter : u.meterOf c = (s.meterOf c).counted := by rw [← hu, State.putMeter_meterOf, if_pos rfl]
  have hput (r : ChannelMeter × List Event) : u.putMeter c r = s.putMeter c r := by
    rw [← hu, State.putMeter_putMeter, List.nil_append]
  have hblock : s.blocks[c] = u.blocks[c] := congrArg ChannelMeter.block hmeter.symm
  have hguard : u.guard c = (s.meterOf c).counted.guard := congrArg ChannelMeter.guard hmeter
  have hchan : u.chan c = (s.meterOf c).chan := congrArg ChannelMeter.chan hmeter
  unfold State.guardChan ChannelMeter.guarded
  simp only [hcounted, hguard, hchan, apply_ite (s.putMeter c), hu, State.putMeter_meterOf_self]
  rw [hblock, State.guardStep_eq, State.guardFloor_eq, hmeter, hput, hput]
  rfl

theorem ChannelMeter.guarded_block (m : ChannelMeter) : (m.guarded c).1.block = m.block := by
  unfold ChannelMeter.guarded
  split
  · split
    · split <;> rfl
    · rfl
  · rfl

/-- One channel's boundary work. -/
theorem State.meterChan_eq : s.meterChan c = s.putMeter c ((s.meterOf c).boundary c) := by
  have hblock : ((s.meterOf c).guarded c).1.block = s.blocks[c] := ChannelMeter.guarded_block c _
  rw [State.meterChan, State.guardChan_eq, ← hblock]
  simp only [State.putMeter, Fin.getElem_fin, upd_same, upd_upd]
  rfl

end channel

/-! ### All channels -/

/-- The unit's work on several channels, one after another: each by its own part alone, and the events in that order. -/
theorem State.foldl_meterChan (l : List ChanId) (hl : l.Nodup) (s t : State) (ht : t = l.foldl State.meterChan s) :
    t = { s with
      blocks := t.blocks, intervals := t.intervals, guards := t.guards, chans := t.chans
      ex := s.ex.joinAll s.frame (l.flatMap fun c => ((s.meterOf c).boundary c).2) } ∧
    ∀ c, t.meterOf c = if c ∈ l then ((s.meterOf c).boundary c).1 else s.meterOf c := by
  induction l generalizing s with
  | nil => subst ht; exact ⟨rfl, fun c => (if_neg List.not_mem_nil).symm⟩
  | cons d l ih =>
    obtain ⟨hd, hl⟩ := List.nodup_cons.1 hl
    rw [List.foldl_cons, State.meterChan_eq] at ht
    obtain ⟨hframe, hmeters⟩ := ih hl _ ht
    have hother {c : ChanId} (hc : d ≠ c) : (s.putMeter d ((s.meterOf d).boundary d)).meterOf c = s.meterOf c := by
      rw [State.putMeter_meterOf, if_neg hc]
    refine ⟨?_, fun c => ?_⟩
    · have hevents : (l.flatMap fun c => (((s.putMeter d ((s.meterOf d).boundary d)).meterOf c).boundary c).2) =
          l.flatMap fun c => ((s.meterOf c).boundary c).2 :=
        List.flatMap_congr fun c hc => by rw [hother (ne_of_mem_of_not_mem hc hd).symm]
      rw [hevents] at hframe
      rw [List.flatMap_cons, Exchange.joinAll_append]
      exact hframe
    · rw [hmeters]
      by_cases hc : d = c
      · subst hc
        rw [if_neg hd, if_pos List.mem_cons_self, State.putMeter_meterOf, if_pos rfl]
      · rw [hother hc]
        simp only [List.mem_cons, Ne.symm hc, false_or]

/-- BLOCK_BOUNDARY of the Meter and Guard Unit, where it owes its work: every channel by its own part, and the guards' events
in channel order (R98, R111). -/
theorem exec_meterBoundary {s : State} (ph : PhaseInput) (h : s.owed.contains .meterGuard = true) :
    ∃ t, exec (.blockBoundary [.meterGuard] ph) s = .next t ∧
      t = { s with
        owed := s.owed.filter (fun v => v != .meterGuard), blocks := t.blocks, intervals := t.intervals
        guards := t.guards, chans := t.chans
        ex := s.ex.joinAll s.frame ((List.finRange 64).flatMap fun c => ((s.meterOf c).boundary c).2) } ∧
      ∀ c, t.meterOf c = ((s.meterOf c).boundary c).1 := by
  obtain ⟨hframe, hmeters⟩ := State.foldl_meterChan (indices 64) (List.nodup_finRange 64)
    { s with owed := s.owed.filter fun v => v != .meterGuard } _ rfl
  exact ⟨_, exec_blockBoundary_owed ph h, hframe, fun c => (hmeters c).trans (if_pos (mem_indices c))⟩

/-! ### A guard that is left alone -/

section guards
variable {c : ChanId} {m : ChannelMeter}

/-- A guard that is off, or whose channel carries the start-up flag (R107). -/
theorem ChannelMeter.guarded_of_off (h : m.guard.enable = false ∨ m.chan.startup = true) : m.guarded c = (m, []) := by
  have hoff : (m.guard.enable && !m.chan.startup) = false := by rcases h with h | h <;> simp [h]
  rw [ChannelMeter.guarded, hoff, if_neg Bool.false_ne_true]

/-- Of the interval record, the guard sets its own mark alone (R100). -/
theorem ChannelMeter.guarded_interval (c : ChanId) (m : ChannelMeter) :
    (m.guarded c).1.interval = { m.interval with guarded := (m.guarded c).1.interval.guarded } := by
  unfold ChannelMeter.guarded
  split
  · split
    · split <;> rfl
    · rfl
  · rfl

end guards

/-- Settles O30: a boundary merges and clears the block of each channel, and a guard that is left alone changes nothing. -/
theorem boundaryMergesBlocks : Obligations.BoundaryMergesBlocks := by
  unfold Obligations.BoundaryMergesBlocks
  intro s ph h
  obtain ⟨t, hexec, hframe, hmeters⟩ := exec_meterBoundary ph h
  refine ⟨t, hexec, ?_, fun c => ?_⟩
  · rw [hframe]
  · have hmeter := hmeters c
    have hblock : t.blocks[c] = resetBlock := congrArg ChannelMeter.block hmeter
    have hinterval : t.intervals[c] = { s.intervals[c].merge s.blocks[c] with
        guarded := ((s.meterOf c).guarded c).1.interval.guarded } := by
      refine (congrArg ChannelMeter.interval hmeter).trans ?_
      rw [ChannelMeter.boundary, ChannelMeter.completed, ChannelMeter.guarded_interval, ChannelMeter.guarded_block]
      rfl
    rw [hinterval]
    refine ⟨hblock, rfl, rfl, rfl, rfl, fun hoff => ?_⟩
    have halone : (s.meterOf c).guarded c = (s.meterOf c, []) := ChannelMeter.guarded_of_off hoff
    rw [ChannelMeter.boundary, halone] at hmeter
    rw [halone]
    exact ⟨congrArg ChannelMeter.guard hmeter, congrArg ChannelMeter.chan hmeter, rfl⟩

/-! ### A guard in force (R107) -/

theorem Guard.count_below {g : Guard} {code : Nat} (h : code < g.threshold) :
    g.count code = { g with restLeft := g.restLeft - 1, overCount := 0, floorReported := false } :=
  if_neg (Nat.not_le.2 h)

theorem Guard.count_over {g : Guard} {code : Nat} (h : g.threshold ≤ code) :
    g.count code = { g with restLeft := g.restLeft - 1, overCount := min 32 (g.overCount + 1) } :=
  if_pos h

theorem Guard.acts_iff (g : Guard) : g.acts = true ↔ g.hold ≤ g.overCount ∧ g.restLeft = 0 := by
  rw [Guard.acts, Bool.and_eq_true, decide_eq_true_eq, beq_iff_eq]

theorem ChannelMeter.counted_over {m : ChannelMeter} (h : m.guard.threshold ≤ m.block.code) : m.counted = { m with
    guard := { m.guard with restLeft := m.guard.restLeft - 1, overCount := min 32 (m.guard.overCount + 1) } } := by
  rw [ChannelMeter.counted, Guard.count_over h]

section guards
variable {c : ChanId} {m : ChannelMeter} (hon : m.guard.enable = true) (hstarted : m.chan.startup = false)
include hon hstarted

theorem ChannelMeter.guarded_of_idle (h : ¬ m.counted.guard.acts = true) : m.guarded c = (m.counted, []) := by
  rw [ChannelMeter.guarded, hon, hstarted, if_pos (by decide), if_neg h]

/-- A block below the threshold starts the count again. -/
theorem ChannelMeter.guarded_below (hcode : m.block.code < m.guard.threshold) (hhold : 1 ≤ m.guard.hold) : m.guarded c =
    ({ m with guard := { m.guard with restLeft := m.guard.restLeft - 1, overCount := 0, floorReported := false } }, []) := by
  have hcount : m.counted = { m with
      guard := { m.guard with restLeft := m.guard.restLeft - 1, overCount := 0, floorReported := false } } := by
    rw [ChannelMeter.counted, Guard.count_below hcode]
  have hidle : ¬ m.counted.guard.acts = true := by
    rw [Guard.acts_iff, hcount]
    exact fun h => Nat.not_succ_le_zero _ (hhold.trans h.1)
  rw [ChannelMeter.guarded_of_idle hon hstarted hidle, hcount]

/-- A guard waits while its hold is not met or its rest runs. -/
theorem ChannelMeter.guarded_waits (hcode : m.guard.threshold ≤ m.block.code)
    (h : min 32 (m.guard.overCount + 1) < m.guard.hold ∨ 1 < m.guard.restLeft) : m.guarded c = ({ m with
      guard := { m.guard with restLeft := m.guard.restLeft - 1, overCount := min 32 (m.guard.overCount + 1) } }, []) := by
  have hcount := ChannelMeter.counted_over hcode
  have hidle : ¬ m.counted.guard.acts = true := by
    rw [Guard.acts_iff, hcount]
    dsimp only
    omega
  rw [ChannelMeter.guarded_of_idle hon hstarted hidle, hcount]

variable (hcode : m.guard.threshold ≤ m.block.code) (hhold : m.guard.hold ≤ min 32 (m.guard.overCount + 1))
  (hrest : m.guard.restLeft ≤ 1)
include hcode hhold hrest

/-- A guard whose hold is met and whose rest has run out takes a step off, or is at its floor. -/
theorem ChannelMeter.guarded_acts : m.guarded c =
    if (m.guard.floor : Int) ≤ m.chan.app.analog - 6 then m.counted.step c else m.counted.atFloor c := by
  have hcount := ChannelMeter.counted_over hcode
  have hfloor : m.counted.guard.floor = m.guard.floor := by rw [hcount]
  have hacts : m.counted.guard.acts = true := by
    rw [Guard.acts_iff, hcount]
    exact ⟨hhold, Nat.sub_eq_zero_of_le hrest⟩
  rw [ChannelMeter.guarded, hon, hstarted, if_pos (by decide), if_pos hacts, hfloor]

theorem ChannelMeter.guarded_steps (hfloor : (m.guard.floor : Int) ≤ m.chan.app.analog - 6) : m.guarded c =
    ({ m with guard := { m.guard with restLeft := 0, overCount := min 32 (m.guard.overCount + 1) } } :
      ChannelMeter).step c := by
  rw [ChannelMeter.guarded_acts hon hstarted hcode hhold hrest, if_pos hfloor, ChannelMeter.counted_over hcode,
    Nat.sub_eq_zero_of_le hrest]

theorem ChannelMeter.guarded_atFloor (hfloor : m.chan.app.analog - 6 < (m.guard.floor : Int)) : m.guarded c =
    ({ m with guard := { m.guard with restLeft := 0, overCount := min 32 (m.guard.overCount + 1) } } :
      ChannelMeter).atFloor c := by
  rw [ChannelMeter.guarded_acts hon hstarted hcode hhold hrest, if_neg (not_le.2 hfloor), ChannelMeter.counted_over hcode,
    Nat.sub_eq_zero_of_le hrest]

end guards

/-! ### The guard's target (R71, R108) -/

section target
variable {c : ChanId} {ch : Chan} {x : Setting}

/-- A response that does not end the operation raises no event. -/
theorem Chan.respond_events (tag : Option Half) (h : ch.tgt ≠ ch.ack) : (ch.respond c tag).2 = [] := by
  unfold Chan.respond
  repeat' (first | rfl | contradiction | split)

/-- A response leaves the tag and the count of an operation that is under way. -/
theorem Chan.respond_keepsSetter (tag : Option Half) (h : ch.op = .zcWait ∨ ch.op = .lineWait ∨ ch.op = .settling) :
    (ch.respond c tag).1.tag = ch.tag ∧ (ch.respond c tag).1.superseded = ch.superseded := by
  have hwait (hop : ch.op = .zcWait ∨ ch.op = .lineWait) :
      (ch.respond c tag).1.tag = ch.tag ∧ (ch.respond c tag).1.superseded = ch.superseded := by
    rw [Chan.respond_waiting hop]
    split <;> exact ⟨rfl, rfl⟩
  rcases h with hop | hop | hop
  · exact hwait (.inl hop)
  · exact hwait (.inr hop)
  · rw [Chan.respond_commanded (.inl hop)]
    exact ⟨rfl, rfl⟩

theorem Chan.guardTarget_same (h : x = ch.tgt) : ch.guardTarget c x = ({ ch with urgent := true }, []) := by
  rw [Chan.guardTarget, if_pos h]

theorem Chan.guardTarget_moved (h : x ≠ ch.tgt) : ch.guardTarget c x =
    ({ (({ ch with tgt := x } : Chan).respond c none).1 with urgent := true },
      (({ ch with tgt := x } : Chan).respond c none).2) := by
  rw [Chan.guardTarget, if_neg h]

theorem Chan.guardTarget_urgent : (ch.guardTarget c x).1.urgent = true := rfl

theorem Chan.guardTarget_tgtSet : (ch.guardTarget c x).1.tgtSet = ch.tgtSet := by
  by_cases h : x = ch.tgt
  · rw [Chan.guardTarget_same h]
  · rw [Chan.guardTarget_moved h]
    exact (Chan.respond_marks c { ch with tgt := x } none).1

theorem Chan.guardTarget_events (h : x ≠ ch.ack) : (ch.guardTarget c x).2 = [] := by
  by_cases hx : x = ch.tgt
  · rw [Chan.guardTarget_same hx]
  · rw [Chan.guardTarget_moved hx]
    exact Chan.respond_events (ch := { ch with tgt := x }) none h

theorem Chan.guardTarget_keepsSetter (h : ch.op = .zcWait ∨ ch.op = .lineWait ∨ ch.op = .settling) :
    (ch.guardTarget c x).1.tag = ch.tag ∧ (ch.guardTarget c x).1.superseded = ch.superseded := by
  by_cases hx : x = ch.tgt
  · rw [Chan.guardTarget_same hx]
    exact ⟨rfl, rfl⟩
  · rw [Chan.guardTarget_moved hx]
    exact Chan.respond_keepsSetter (ch := { ch with tgt := x }) none h

/-- A target that the guard moves away from the acknowledged setting opens an operation of an IDLE channel, with no tag. -/
theorem Chan.guardTarget_starts (hx : x ≠ ch.tgt) (hop : ch.op = .idle) (hack : x ≠ ch.ack) :
    (ch.guardTarget c x).1.op = .zcWait ∧ (ch.guardTarget c x).1.opened = true ∧ (ch.guardTarget c x).1.tag = none := by
  rw [Chan.guardTarget_moved hx, Chan.respond_idle (ch := { ch with tgt := x }) hop, if_neg hack]
  exact ⟨rfl, rfl, rfl⟩

theorem Chan.loweredTarget_ne (h : ch.loweredTarget.analog < ch.tgt.analog) : ch.loweredTarget ≠ ch.tgt :=
  fun he => h.ne (congrArg Setting.analog he)

theorem Chan.loweredTarget_eq (h : ch.loweredTarget.analog = ch.tgt.analog) : ch.loweredTarget = ch.tgt := by
  rw [Chan.loweredTarget, show min ch.tgt.analog (ch.app.analog - 6) = ch.tgt.analog from h]

end target

/-- Settles O31: the guards one by one, each by the counters of its boundary. -/
theorem guardLowersTarget : Obligations.GuardLowersTarget := by
  unfold Obligations.GuardLowersTarget
  intro s ph h
  obtain ⟨t, hexec, hframe, hmeters⟩ := exec_meterBoundary ph h
  refine ⟨t, fun c => ((s.meterOf c).guarded c).2, hexec, hframe, ?_⟩
  rintro c g o code n after rfl rfl rfl rfl rfl
  have hguard : t.guard c = ((s.meterOf c).guarded c).1.guard := congrArg ChannelMeter.guard (hmeters c)
  have hchan : t.chan c = ((s.meterOf c).guarded c).1.chan := congrArg ChannelMeter.chan (hmeters c)
  have hmark : t.intervals[c].guarded = ((s.meterOf c).guarded c).1.interval.guarded :=
    congrArg (fun m : ChannelMeter => m.interval.guarded) (hmeters c)
  rw [hguard, hchan, hmark]
  beta_reduce
  refine ⟨fun hoff => ?_, fun hon hstarted => ⟨fun hcode hhold => ?_, fun hcode hwait => ?_,
    fun hcode hhold hrest hfloor => ?_, fun hcode hhold hrest hfloor => ?_⟩⟩
  · rw [ChannelMeter.guarded_of_off (m := s.meterOf c) hoff]
    exact ⟨rfl, rfl, rfl⟩
  · rw [ChannelMeter.guarded_below (m := s.meterOf c) hon hstarted hcode hhold]
    exact ⟨rfl, rfl, rfl, rfl⟩
  · rw [ChannelMeter.guarded_waits (m := s.meterOf c) hon hstarted hcode hwait]
    exact ⟨rfl, rfl, rfl, rfl⟩
  · rw [ChannelMeter.guarded_steps (m := s.meterOf c) hon hstarted hcode hhold hrest hfloor]
    obtain ⟨hack, happ, htgt, hpend, -⟩ := (Chan.settings_iff (b := { s.chan c with tgt := (s.chan c).loweredTarget })).1
      ((s.chan c).guardTarget_settings c (s.chan c).loweredTarget)
    have howner := congrArg Prod.fst ((s.chan c).guardTarget_standing c (s.chan c).loweredTarget)
    exact ⟨rfl, rfl, htgt, Chan.guardTarget_urgent, Chan.guardTarget_tgtSet, hack, happ, howner, hpend,
      Chan.guardTarget_keepsSetter, fun hsame => congrArg Prod.fst (Chan.guardTarget_same (Chan.loweredTarget_eq hsame)),
      fun hless hop hne => Chan.guardTarget_starts (Chan.loweredTarget_ne hless) hop hne,
      _, rfl, Chan.guardTarget_events⟩
  · rw [ChannelMeter.guarded_atFloor (m := s.meterOf c) hon hstarted hcode hhold hrest hfloor]
    exact ⟨rfl, rfl, rfl, rfl⟩

end Sys2Proof.Machine
end

section
/-! PROOFS. METER_CLOSE: the snapshot taken, the interval cleared, and what becomes of the snapshot (R101 to R103, R178, R181,
R190). -/

namespace Sys2Proof.Machine

/-! ### What becomes of a snapshot (R190) -/

section snapshots
variable {x : Exchange} (m : Snapshot)

theorem Exchange.mayWrite_iff : x.mayWrite = true ↔ x.enable = true ∧ x.filled < x.count := by
  rw [Exchange.mayWrite, Bool.and_eq_true, decide_eq_true_eq]

theorem Exchange.takeSnapshot_merges {old : Snapshot} (h : x.held = some old) :
    x.takeSnapshot m = { x with held := some (old.merge m) } := by
  rw [Exchange.takeSnapshot, h]

theorem Exchange.takeSnapshot_holds (h : x.held = none)
    (hbusy : ¬(x.lost = 0 ∧ x.queue = [] ∧ x.enable = true ∧ x.filled < x.count)) :
    x.takeSnapshot m = { x with held := some m } := by
  rw [← Exchange.mayWrite_iff] at hbusy
  rw [Exchange.takeSnapshot, h]
  exact if_neg hbusy

theorem Exchange.takeSnapshot_writes (h : x.held = none) (hlost : x.lost = 0) (hqueue : x.queue = [])
    (hon : x.enable = true) (hroom : x.filled < x.count) : x.takeSnapshot m = x.store 15#8 m.stamp m.body := by
  rw [Exchange.takeSnapshot, h]
  exact if_pos ⟨hlost, hqueue, Exchange.mayWrite_iff.2 ⟨hon, hroom⟩⟩

end snapshots

theorem Exchange.store_frame (x : Exchange) (kind : Byte) (stamp : Word) (body : List Byte) :
    x.store kind stamp body = { x with filled := x.filled + 1, mem := (x.store kind stamp body).mem } := rfl

theorem Snapshot.merge_entry (old new : Snapshot) (c : ChanId) :
    (old.merge new).entries[c] = old.entries[c].merge new.entries[c] := tab_get _ c

/-- METER_CLOSE, where the meter countdown has run out (R101, R103, R178). -/
theorem exec_meterClose {s : State} (h : s.ex.meterCountdown = 0) : exec .meterClose s = .next { s with
    intervals := tab fun _ => resetInterval
    xps := tab fun c => PerFeed.of fun f => { s.xp c f with satSeen := false }
    ex := { s.ex with meterCountdown := s.ex.meterInterval }.takeSnapshot s.snapshot } := by
  have hdue : s.closeDue = true := beq_iff_eq.2 h
  change Host.Outcome.next s.closeInterval = _
  rw [State.closeInterval, if_pos hdue]

/-- Settles O34: the snapshot is that of the records before the close, and is merged, held or written. -/
theorem closeTakesSnapshot : Obligations.CloseTakesSnapshot := by
  unfold Obligations.CloseTakesSnapshot
  rintro s x h hx
  refine ⟨_, s.snapshot, exec_meterClose h, rfl, rfl, fun c => ⟨tab_get _ c, tab_get _ c, fun f => ?_⟩,
    fun old hheld => ?_, fun hheld hbusy => ?_, fun hheld hlost hqueue hon hroom hmem => ?_⟩
  · exact (congrArg (fun v : PerFeed Xp => v.get f) (tab_get _ c)).trans (PerFeed.of_get _ f)
  · rw [← hx]
    exact ⟨old.merge s.snapshot, x.takeSnapshot_merges _ (hx ▸ hheld), rfl, fun c => Snapshot.merge_entry _ _ c⟩
  · rw [← hx]
    exact x.takeSnapshot_holds _ (hx ▸ hheld) hbusy
  · rw [← hx]
    dsimp only
    rw [x.takeSnapshot_writes _ (hx ▸ hheld) hlost hqueue hon hroom, Snapshot.body_eq]
    exact ⟨x.store_frame _ _ _, x.store_reports _ _ (by rw [meterBody_length]; decide) hmem⟩

end Sys2Proof.Machine
end

section
/-! PROOFS. SET_GUARD at its take, and the layout of its reply (R54, R105, R106, R180). -/

namespace Sys2Proof.Machine

/-- The settings are stored in their ranges, and the counters cleared where an enabled guard is turned off (R105, R106). -/
theorem Guard.configure_eq {g k : Guard} {e : Byte} {threshold hold floor rest : Nat} (he : e.toNat ≤ 1)
    (hk : k = { g with
      enable := e == 1#8, threshold := max 1 (min 32768 threshold), hold := max 1 (min 32 hold)
      floor := roundCode floor, rest := max 10 (min 1000 rest) }) :
    g.configure (e == 1#8) threshold hold floor rest =
      if g.enable = true ∧ e = 0#8 then { k with overCount := 0, restLeft := 0, floorReported := false } else k := by
  subst hk
  have hvalue : e = 0#8 ∨ e = 1#8 := by
    simp only [← BitVec.toNat_inj, BitVec.toNat_ofNat]
    omega
  rcases hvalue with rfl | rfl
  · cases hg : g.enable with
    | true => rw [if_pos ⟨rfl, rfl⟩, Guard.configure, hg]; rfl
    | false => rw [if_neg (fun h => Bool.false_ne_true h.1), Guard.configure, hg]; rfl
  · have hon : (g.enable && !(1#8 == 1#8)) = false := Bool.and_false _
    rw [if_neg (fun h => absurd h.2 (by decide)), Guard.configure, hon]
    rfl

/-- CLAMPED says that some number was moved (R105). -/
theorem okOr_guardClamped (threshold hold floor rest : Nat) : okOr (guardClamped threshold hold floor rest) =
    if max 1 (min 32768 threshold) = threshold ∧ max 1 (min 32 hold) = hold ∧ roundCode floor = floor ∧
      max 10 (min 1000 rest) = rest then .ok else .clamped := by
  have hkept : ¬ guardClamped threshold hold floor rest = true ↔ max 1 (min 32768 threshold) = threshold ∧
      max 1 (min 32 hold) = hold ∧ roundCode floor = floor ∧ max 10 (min 1000 rest) = rest := by
    simp only [Bool.not_eq_true, guardClamped, clampNat, Bool.or_eq_false_iff, bne_eq_false_iff_eq, and_assoc]
  rw [okOr, ← ite_not]
  exact if_congr hkept rfl rfl

section takes
variable {s : State} {h : ReqHead} {c : ChanId} {src : Source}

/-- SET_GUARD with authority (R54, R105). -/
theorem served_setGuard (hr : s.Ready h) (hc : decodeChannel h.channel = some c) (hs : decodeSource h.source = some src)
    (hauth : src = .panel ∨ ∃ f, src = .feed f ∧ (s.chan c).owner = some f) {e : Byte} (he : e.toNat ≤ 1)
    (threshold hold floor rest : Half) {u : State} (hu : u = s.setGuard c
      ((s.guard c).configure (e == 1#8) threshold.toNat hold.toNat floor.toNat rest.toNat)) :
    Served (.setGuard h e threshold hold floor rest) s u h 6#8
      (okOr (guardClamped threshold.toNat hold.toNat floor.toNat rest.toNat)) (some (u.guardReply c true)) := by
  subst hu
  refine served_of_finish hr (serve := fun s t => s.serveSetGuard t e threshold hold floor rest)
    (args := [e, 0#8] ++ halfBytes threshold ++ halfBytes hold ++ halfBytes floor ++ halfBytes rest) rfl
    (Nat.le_of_ble_eq_true rfl) (by rintro bs ⟨⟩; exact Nat.le_of_ble_eq_true rfl) hr.takeReady ?_
  have hauth : ¬ phantomAuthorised src (s.chan c).owner = false := by rw [phantomAuthorised_of hauth]; decide
  refine (State.withChan_of_decoded _ 6#8 _ hc hs).trans ?_
  exact (if_neg (Nat.not_lt.2 he)).trans ((if_neg hauth).trans rfl)

end takes

/-- The reply of SET_GUARD (R105, R180). -/
theorem State.guardReply_eq (s : State) (c : ChanId) (served : Bool) {g : Guard} (hg : g = s.guard c) :
    s.guardReply c served = [flags [g.enable]] ++ little 1 g.hold ++ little 2 g.threshold ++ little 2 g.rest ++
      little 1 g.floor ++ little 1 g.overCount ++ little 2 g.restLeft ++ [flags [g.floorReported]] ++
      (if served = true then little 1 (s.chan c).app.analog ++ little 1 (s.chan c).tgt.analog ++
        [flags [(s.chan c).urgent]] else [0#8, 0#8, 0#8]) ++ [ownerByte (s.chan c).owner] := by
  rw [State.guardReply, ← hg]
  simp only [← codeByte_little, u8_codeByte, u16_little, flagByte_flags, List.append_assoc]
  rfl

/-- Settles O51: the take stores what the ranges give, and the reply is laid out field by field. -/
theorem setGuardStoresRecord : Obligations.SetGuardStoresRecord := by
  unfold Obligations.SetGuardStoresRecord
  refine ⟨fun s h c src e threshold hold floor rest fl hr hc hs hauth he hfl hnear g hg u hu => ?_,
    fun s c served g hg => s.guardReply_eq c served hg⟩
  obtain rfl : roundCode floor.toNat = fl := roundCode_eq hfl hnear
  rw [← Guard.configure_eq he hg] at hu
  have hserved := served_setGuard hr hc hs hauth he threshold hold floor rest hu
  rw [okOr_guardClamped] at hserved
  rw [hg]
  exact hserved

end Sys2Proof.Machine
end

section
/-! PROOFS. SWAP and LOAD_SHADOW at their takes (R117 to R120), and the layout of a scene entry (R116, R182). -/

namespace Sys2Proof.Machine

/-- The common checks of a kind that uses neither channel nor feed pass where the source is in its set (R174). -/
theorem State.withSource_of_decoded (s : State) {h : ReqHead} {src : Source} (kind : Byte) (k : State)
    (hs : decodeSource h.source = some src) : s.withSource (takeHead h kind) k = k := by
  rw [State.withSource, show decodeSource (takeHead h kind).source = some src from hs]

/-! ### SWAP (R119) -/

section swap
variable {s : State} {h : ReqHead} {src : Source} (hr : s.Ready h) (hs : decodeSource h.source = some src) {mask : ChanMask}
include hr hs

/-- A swap of no channel (R119). -/
theorem served_swap_badArg (hmask : mask = 0#64) : Served (.swap h mask) s s h 15#8 .badArg none :=
  served_of_refusal hr (serve := fun s t => s.serveSwap t mask) (args := maskBytes mask) rfl (Nat.le_of_ble_eq_true rfl)
    fun u => (u.withSource_of_decoded 15#8 _ hs).trans (if_pos hmask)

/-- A second swap leaves the pending one and reports it (R119). -/
theorem served_swap_busy (hmask : mask ≠ 0#64) (hpending : s.scenes.mask ≠ 0#64) :
    Served (.swap h mask) s s h 15#8 .busy
      (some (maskBytes s.scenes.mask ++ maskBytes 0#64 ++ halfBytes (tagOf s.scenes.tag))) :=
  served_unchanged hr (serve := fun s t => s.serveSwap t mask) (args := maskBytes mask) rfl (Nat.le_of_ble_eq_true rfl)
    (Nat.le_of_ble_eq_true rfl) ((State.withSource_of_decoded _ 15#8 _ hs).trans ((if_neg hmask).trans (if_pos hpending)))

/-- A swap of some channel, where none is pending (R119). -/
theorem served_swap (hmask : mask ≠ 0#64) (hpending : s.scenes.mask = 0#64) :
    Served (.swap h mask) s { s with scenes := { s.scenes with mask := mask, tag := some h.tag } } h 15#8 .ok
      (some (maskBytes mask ++ maskBytes (mask &&& s.scenes.loaded))) :=
  served_of_finish hr (serve := fun s t => s.serveSwap t mask) (args := maskBytes mask) rfl (Nat.le_of_ble_eq_true rfl)
    (by rintro bs ⟨⟩; exact Nat.le_of_ble_eq_true rfl) hr.takeReady
    ((State.withSource_of_decoded _ 15#8 _ hs).trans ((if_neg hmask).trans (if_neg (not_not_intro hpending))))

end swap

/-- Settles O58: an empty mask, a pending swap and a free store are the three branches of the take. -/
theorem swapStoresMask : Obligations.SwapStoresMask := fun _ _ _ _ hr hs =>
  ⟨served_swap_badArg hr hs, served_swap_busy hr hs, served_swap hr hs⟩

/-! ### The layout of a scene entry (R116, R182) -/

/-- Rounding onto the grid of codes, the remainder 3 going down (R176). -/
theorem roundCode_spec (n : Nat) : roundCode n % 6 = 0 ∧
    ((n ≤ 240 ∧ roundCode n ≤ n + 2 ∧ n ≤ roundCode n + 3) ∨ (240 < n ∧ roundCode n = 240)) := by
  unfold roundCode
  split
  · omega
  · split <;> omega

theorem entryOwner_eq (v : Byte) : entryOwner v = if v = 1#8 then some .a else if v = 2#8 then some .b
    else if v = 3#8 then some .c else if v = 4#8 then some .d else none := by
  simp only [← BitVec.toNat_inj, BitVec.reduceToNat]
  unfold entryOwner
  split
  case h_5 h1 h2 h3 h4 => rw [if_neg h1, if_neg h2, if_neg h3, if_neg h4]
  all_goals
    next hv => rw [hv]; rfl

/-- A mode pair is two bits of the byte of modes. -/
theorem modePair_eq (v : Byte) (f : Feed) : modePair v f = (v.extractLsb' (2 * feedIndex f) 2).toNat := by
  rw [modePair, BitVec.extractLsb'_toNat, Nat.shiftRight_eq_div_pow, pow_mul]
  rfl

/-- The trim of the feed with index i lies at byte 4 + 2i of an entry. -/
theorem readHalf_trim (m : List Host.Cell) (a i : Nat) :
    readHalf m (a + 4 + 2 * i) = readByte m (a + 5 + 2 * i) ++ readByte m (a + 4 + 2 * i) := by
  rw [readHalf, show a + 4 + 2 * i + 1 = a + 5 + 2 * i by omega]

theorem clampGain_ne_iff {x : Int} : clampGain x ≠ x ↔ ¬(-240 ≤ x ∧ x ≤ 96) := by
  unfold clampGain
  omega

/-- Some feed passes exactly where some index below 4 does. -/
theorem any_allFeeds_iff {q : Feed → Bool} {p : Nat → Prop} (h : ∀ f, q f = true ↔ p (feedIndex f)) :
    allFeeds.any q = true ↔ ∃ i, i < 4 ∧ p i := by
  rw [List.any_eq_true]
  constructor
  · rintro ⟨f, -, hf⟩
    exact ⟨feedIndex f, by cases f <;> decide, (h f).1 hf⟩
  · rintro ⟨i, hi, hp⟩
    obtain ⟨f, rfl⟩ := exists_feedIndex hi
    exact ⟨f, mem_allFeeds f, (h f).2 hp⟩

section entry
variable (m : List Host.Cell) (a : Nat)

/-- The code of an entry is brought onto the grid (R116). -/
theorem readEntry_analog : (readEntry m a).record.target.analog % 6 = 0 ∧
    (((readByte m a).toNat ≤ 240 ∧ (readEntry m a).record.target.analog ≤ (readByte m a).toNat + 2 ∧
        ((readByte m a).toNat : Int) ≤ (readEntry m a).record.target.analog + 3) ∨
      (240 < (readByte m a).toNat ∧ (readEntry m a).record.target.analog = 240)) := by
  have hspec := roundCode_spec (readByte m a).toNat
  simp only [readEntry]
  omega

/-- A feed's part of an entry: its mode pair, its trim brought into range, and its two flags (R116, R182). -/
theorem readEntry_feed (f : Feed) :
    (((readEntry m a).record.feeds.get f).track = true ↔
      (readByte m (a + 3)).extractLsb' (2 * feedIndex f) 2 = 1#2) ∧
    ((readEntry m a).record.feeds.get f).trim = max (-240)
      (min 96 (readByte m (a + 5 + 2 * feedIndex f) ++ readByte m (a + 4 + 2 * feedIndex f)).toInt) ∧
    ((readEntry m a).record.feeds.get f).mute = (readByte m (a + 12)).getLsbD (feedIndex f) ∧
    ((readEntry m a).record.feeds.get f).invert = (readByte m (a + 12)).getLsbD (feedIndex f + 4) := by
  simp only [readEntry, PerFeed.of_get, Nat.add_comm 4 (feedIndex f), and_true]
  refine ⟨beq_iff_eq.trans ?_, ?_⟩
  · rw [modePair_eq, ← BitVec.toNat_inj]; rfl
  · rw [← readHalf_trim]; rfl

/-- The clamped mark of an entry is its code off the grid or a trim out of range (R116). -/
theorem readEntry_clamped : (readEntry m a).clamped = true ↔
    (readEntry m a).record.target.analog ≠ (readByte m a).toNat ∨ ∃ i, i < 4 ∧
      ¬(-240 ≤ (readByte m (a + 5 + 2 * i) ++ readByte m (a + 4 + 2 * i)).toInt ∧
        (readByte m (a + 5 + 2 * i) ++ readByte m (a + 4 + 2 * i)).toInt ≤ 96) := by
  refine Bool.or_eq_true_iff.trans (or_congr (bne_iff_ne.trans Nat.cast_injective.ne_iff.symm) (any_allFeeds_iff fun f => ?_))
  rw [← readHalf_trim, ← clampGain_ne_iff]
  exact bne_iff_ne

/-- The invalid mark of an entry is a value outside the set that its layout assigns (R117, R182). -/
theorem readEntry_invalid : (readEntry m a).invalid = true ↔
    1 < (readByte m (a + 1)).toNat ∨ 4 < (readByte m (a + 2)).toNat ∨
      ∃ i, i < 4 ∧ 1 < ((readByte m (a + 3)).extractLsb' (2 * i) 2).toNat := by
  refine Bool.or_eq_true_iff.trans ((or_congr ?_ (any_allFeeds_iff fun f => ?_)).trans or_assoc)
  · rw [Bool.or_eq_true, decide_eq_true_eq, decide_eq_true_eq]
  · rw [← modePair_eq, decide_eq_true_eq]

end entry

/-! ### LOAD_SHADOW (R117, R118) -/

/-- The channels of the run of a LOAD_SHADOW (R117). -/
def inRun (first count : Byte) (c : ChanId) : Bool :=
  decide (first.toNat ≤ c.val) && decide (c.val < first.toNat + count.toNat)

theorem inRun_iff {first count : Byte} {c : ChanId} :
    inRun first count c = true ↔ first.toNat ≤ c.val ∧ c.val < first.toNat + count.toNat := by
  rw [inRun, Bool.and_eq_true, decide_eq_true_eq, decide_eq_true_eq]

/-- A channel's entry of the table of a LOAD_SHADOW (R117). -/
def entryOf (m : List Host.Cell) (table : Word) (c : ChanId) : SceneEntry := readEntry m (table.toNat + 16 * c.val)

/-- The channels of a run whose entry had a value brought into range (R118). -/
def clampedRun (m : List Host.Cell) (table : Word) (first count : Byte) : ChanMask :=
  maskOf fun c => inRun first count c && (entryOf m table c).clamped

/-- The Scene Store once the shadow records of a run are loaded (R117). -/
def SceneStore.load (sc : SceneStore) (m : List Host.Cell) (table : Word) (first count : Byte) : SceneStore :=
  { sc with
    shadow := tab fun c => if inRun first count c then (entryOf m table c).record else sc.shadow[c]
    loaded := sc.loaded ||| maskOf (inRun first count) }

theorem SceneStore.load_loaded {sc : SceneStore} {m : List Host.Cell} {table : Word} {first count : Byte} {c : ChanId} :
    (sc.load m table first count).loaded.getLsbD c.val = true ↔
      inRun first count c = true ∨ sc.loaded.getLsbD c.val = true := by
  rw [SceneStore.load, BitVec.getLsbD_or, maskOf_getLsbD, Bool.or_eq_true, or_comm]

theorem SceneStore.load_shadow (sc : SceneStore) (m : List Host.Cell) (table : Word) (first count : Byte) (c : ChanId) :
    (sc.load m table first count).shadow[c] =
      if inRun first count c = true then (entryOf m table c).record else sc.shadow[c] :=
  tab_get _ c

/-- A mask whose bits are a test's values is the mask of the test. -/
theorem eq_maskOf {v : ChanMask} {p : ChanId → Bool} (h : ∀ c : ChanId, v.getLsbD c.val = true ↔ p c = true) :
    v = maskOf p :=
  BitVec.eq_of_getLsbD_eq fun i hi => Bool.eq_iff_iff.2 ((h ⟨i, hi⟩).trans (by rw [← maskOf_getLsbD p ⟨i, hi⟩]))

section run
variable {first count : Byte} {p : ChanId → Bool}

theorem any_inRun_iff : (indices 64).any (fun c => inRun first count c && p c) = true ↔
    ∃ c : ChanId, (first.toNat ≤ c.val ∧ c.val < first.toNat + count.toNat) ∧ p c = true := by
  simp only [List.any_eq_true, Bool.and_eq_true, inRun_iff, mem_indices, true_and]

/-- The lowest channel of the run that passes is the one found. -/
theorem find?_inRun_eq_some {c : ChanId} (hc : first.toNat ≤ c.val ∧ c.val < first.toNat + count.toNat) (hp : p c = true)
    (hbefore : ∀ d : ChanId, first.toNat ≤ d.val ∧ d.val < first.toNat + count.toNat → d < c → p d = false) :
    (indices 64).find? (fun c => inRun first count c && p c) = some c := by
  rw [indices, ← Fin.find?_eq_find?_finRange, Fin.find?_eq_some_iff]
  refine ⟨Bool.and_eq_true_iff.2 ⟨inRun_iff.2 hc, hp⟩, fun d hd => ?_⟩
  rw [Bool.and_eq_false_imp]
  exact fun hin => hbefore d (inRun_iff.1 hin) hd

theorem find?_inRun_eq_none
    (h : ∀ c : ChanId, first.toNat ≤ c.val ∧ c.val < first.toNat + count.toNat → p c = false) :
    (indices 64).find? (fun c => inRun first count c && p c) = none := by
  refine List.find?_eq_none.2 fun c _ => ?_
  rw [Bool.not_eq_true, Bool.and_eq_false_imp]
  exact fun hin => h c (inRun_iff.1 hin)

end run

section load
variable {s : State} {h : ReqHead} {src : Source} (hr : s.Ready h) (hs : decodeSource h.source = some src)
  {table : Word} {first count : Byte}
include hr hs

/-- A run that is empty or goes past the last channel (R117). -/
theorem served_loadShadow_badRun (hrun : count = 0#8 ∨ 64 < first.toNat + count.toNat) :
    Served (.loadShadow h table first count) s s h 14#8 .badArg none :=
  served_of_refusal hr (serve := fun s t => s.serveLoadShadow t table first count)
    (args := wordBytes table ++ [first, count]) rfl (Nat.le_of_ble_eq_true rfl)
    fun u => (u.withSource_of_decoded 14#8 _ hs).trans (if_pos hrun)

variable (hrun : ¬ (count = 0#8 ∨ 64 < first.toNat + count.toNat))
include hrun

/-- A table that does not lie at an aligned offset inside the window (R117). -/
theorem served_loadShadow_badPointer (htable : inWindow table.toNat 1024 = false) :
    Served (.loadShadow h table first count) s s h 14#8 .badPointer
      (some (shadowReply s.scenes.loaded 0#64 0#64 none)) :=
  served_unchanged hr (serve := fun s t => s.serveLoadShadow t table first count)
    (args := wordBytes table ++ [first, count]) rfl (Nat.le_of_ble_eq_true rfl) (Nat.le_of_ble_eq_true rfl)
    ((State.withSource_of_decoded _ 14#8 _ hs).trans ((if_neg hrun).trans (if_pos htable)))

variable (htable : ¬ inWindow table.toNat 1024 = false)
include htable

/-- A run that meets the pending swap (R117). -/
theorem served_loadShadow_busy
    (hpending : (indices 64).any (fun c => inRun first count c && inMask s.scenes.mask c) = true) :
    Served (.loadShadow h table first count) s s h 14#8 .busy
      (some (shadowReply s.scenes.loaded 0#64 s.scenes.mask none)) :=
  served_unchanged hr (serve := fun s t => s.serveLoadShadow t table first count)
    (args := wordBytes table ++ [first, count]) rfl (Nat.le_of_ble_eq_true rfl) (Nat.le_of_ble_eq_true rfl)
    ((State.withSource_of_decoded _ 14#8 _ hs).trans
      ((if_neg hrun).trans ((if_neg htable).trans (if_pos hpending))))

variable (hpending : ¬ (indices 64).any (fun c => inRun first count c && inMask s.scenes.mask c) = true)
  {m : List Host.Cell} (hm : m = (s.ex.offer h 14#8 (wordBytes table ++ [first, count])).mem)
include hpending hm

/-- The first invalid entry of the run is named, and nothing is loaded (R117, R118). -/
theorem served_loadShadow_badEntry {c : ChanId}
    (hfind : (indices 64).find? (fun c => inRun first count c && (entryOf m table c).invalid) = some c) :
    Served (.loadShadow h table first count) s s h 14#8 .badArg
      (some (shadowReply s.scenes.loaded (clampedRun m table first count) 0#64 (some c))) := by
  subst hm
  refine served_unchanged hr (serve := fun s t => s.serveLoadShadow t table first count)
    (args := wordBytes table ++ [first, count]) rfl (Nat.le_of_ble_eq_true rfl) (Nat.le_of_ble_eq_true rfl)
    ((State.withSource_of_decoded _ 14#8 _ hs).trans
      ((if_neg hrun).trans ((if_neg htable).trans ((if_neg hpending).trans ?_))))
  split
  · next d hd => cases hfind.symm.trans hd; rfl
  · next hd => cases hfind.symm.trans hd

/-- The run is loaded (R117, R118). -/
theorem served_loadShadow
    (hfind : (indices 64).find? (fun c => inRun first count c && (entryOf m table c).invalid) = none) :
    Served (.loadShadow h table first count) s { s with scenes := s.scenes.load m table first count } h 14#8
      (okOr (clampedRun m table first count != 0#64))
      (some (shadowReply (s.scenes.load m table first count).loaded (clampedRun m table first count) 0#64 none)) := by
  subst hm
  refine served_of_finish hr (serve := fun s t => s.serveLoadShadow t table first count)
    (args := wordBytes table ++ [first, count]) rfl (Nat.le_of_ble_eq_true rfl)
    (by rintro bs ⟨⟩; exact Nat.le_of_ble_eq_true rfl) hr.takeReady
    ((State.withSource_of_decoded _ 14#8 _ hs).trans
      ((if_neg hrun).trans ((if_neg htable).trans ((if_neg hpending).trans ?_))))
  split
  · next d hd => cases hfind.symm.trans hd
  · rfl

end load

/-- Settles O57: the four checks and the load are the branches of the take, and an entry is read field by field. -/
theorem loadShadowFillsRun : Obligations.LoadShadowFillsRun := by
  refine ⟨fun s h src table first count m run zero hr hs hm hrun hzero => ?_, fun m a e he => ?_⟩
  · subst hrun hzero
    refine ⟨served_loadShadow_badRun hr hs, fun hcount hlast => ?_⟩
    have hrun : ¬ (count = 0#8 ∨ 64 < first.toNat + count.toNat) := not_or.2 ⟨hcount, Nat.not_lt.2 hlast⟩
    refine ⟨fun hbad => served_loadShadow_badPointer hr hs hrun (Bool.eq_false_iff.2 (mt inWindow_iff.1 hbad)),
      fun halign hlow hhigh => ?_⟩
    have htable : ¬ inWindow table.toNat 1024 = false := by rw [inWindow_iff.2 ⟨halign, hlow, hhigh⟩]; decide
    refine ⟨fun hmeets => served_loadShadow_busy hr hs hrun htable (any_inRun_iff.2 hmeets),
      fun hfree clamped hclamped => ?_⟩
    have hpending : ¬ (indices 64).any (fun c => inRun first count c && inMask s.scenes.mask c) = true :=
      fun hmeets => (any_inRun_iff.1 hmeets).elim fun c ⟨hc, hbit⟩ => Bool.eq_false_iff.1 (hfree c hc) hbit
    obtain rfl : clamped = clampedRun m table first count :=
      eq_maskOf fun c => (hclamped c).trans (by rw [Bool.and_eq_true, inRun_iff]; rfl)
    refine ⟨fun c hc hinvalid hbefore => served_loadShadow_badEntry hr hs hrun htable hpending hm
      (find?_inRun_eq_some hc hinvalid hbefore), fun hvalid => ?_⟩
    have hserved := served_loadShadow hr hs hrun htable hpending hm (find?_inRun_eq_none hvalid)
    rw [okOr_bne] at hserved
    refine ⟨{ s with scenes := s.scenes.load m table first count }, rfl,
      fun c => SceneStore.load_loaded.trans (or_congr_left inRun_iff), fun c => ⟨fun hc => ?_, fun hc => ?_⟩, hserved⟩
    · exact (SceneStore.load_shadow _ _ _ _ _ c).trans (if_pos (inRun_iff.2 hc))
    · exact (SceneStore.load_shadow _ _ _ _ _ c).trans (if_neg (mt inRun_iff.1 hc))
  · subst he
    obtain ⟨hgrid, hnear⟩ := readEntry_analog m a
    refine ⟨hgrid, hnear, beq_iff_eq, entryOwner_eq _, fun p hp => ?_, readEntry_clamped m a, readEntry_invalid m a⟩
    obtain ⟨f, -, rfl⟩ := List.mem_map.1 (show p ∈ allFeeds.map fun f => (f, feedIndex f) from hp)
    exact readEntry_feed m a f

end Sys2Proof.Machine
end

section
/-! PROOFS. The Feed Ports: what arrives in a period (R137, R138, R140, R154), and the work at a boundary, with its verdict,
counts, link state and LINK event (R140 to R149). -/

namespace Sys2Proof.Machine

/-! ### Arrivals -/

theorem PerPort.set_get_self {α : Type} (v : PerPort α) (p : Port) : v.set p (v.get p) = v := by cases p <;> rfl

theorem State.setPort_self (s : State) (p : Port) : s.setPort p (s.port p) = s := by
  rw [State.setPort, State.port, PerPort.set_get_self]

section arrivals

variable {p : PortRec} {w : ReturnWord}

/-- A word that reaches a port in OFF is discarded (R137, R138). -/
theorem PortRec.arrive_off (h : p.state = .off) : p.arrive w = p := if_pos h

/-- The first word of a block is kept (R140). -/
theorem PortRec.arrive_first (h : p.state ≠ .off) (hj : p.judging = true) (hw : p.word = none) :
    p.arrive w = { p with word := some w, timing := true } := by
  simp [PortRec.arrive, h, hj, hw]

/-- A word before the port judges, or one that follows the first of its block, shows timing alone (R137, R140). -/
theorem PortRec.arrive_further (h : p.state ≠ .off) (hw : p.judging = false ∨ p.word ≠ none) :
    p.arrive w = { p with timing := true } := by
  obtain hj | hw := hw
  · simp [PortRec.arrive, h, hj]
  · obtain ⟨first, hfirst⟩ := Option.ne_none_iff_exists'.1 hw
    simp [PortRec.arrive, h, hfirst]

end arrivals

/-- Settles O36: the three cases of an arrival at the port's record. -/
theorem arrivalsAreRecorded : Obligations.ArrivalsAreRecorded := by
  intro s p w
  have hexec : exec (.returnWord p w) s = .next (s.setPort p ((s.port p).arrive w)) := rfl
  refine ⟨rfl, fun hoff => ?_, fun hon hj hw => ?_, fun hon hw => ?_⟩
  · rw [hexec, PortRec.arrive_off hoff, State.setPort_self]
  · rw [hexec, PortRec.arrive_first hon hj hw]
  · rw [hexec, PortRec.arrive_further hon hw]

/-! ### The verdict and the counts -/

theorem wordChecks_eq_false {w : ReturnWord} : wordChecks w = false ↔ w.check ≠ w.id + w.seq + w.third + 0x5A#8 := by
  rw [wordChecks, beq_eq_false_iff_ne]

theorem Verdict.valid_iff (v : Verdict) : v.valid = true ↔ v = .good ∨ v = .slip := by cases v <;> decide

theorem Verdict.error_eq (v : Verdict) : v.error = (v != .good) := by cases v <;> rfl

/-- The ended block has the verdict `v`, after which `seq` is the last sequence number and `latest` the latest word (R139 to
R141). -/
def PortRec.BlockEnds (o : PortRec) (v : Verdict) (seq : Option Byte) (latest : Option LatestWord) : Prop :=
  (o.word = none ∧ v = .missing ∧ seq = o.lastSeq ∧ latest = o.latest) ∨
    ∃ w, o.word = some w ∧
      ((w.check ≠ w.id + w.seq + w.third + 0x5A#8 ∧ v = .check ∧ seq = o.lastSeq ∧ latest = o.latest) ∨
        (w.check = w.id + w.seq + w.third + 0x5A#8 ∧ seq = some w.seq ∧ latest = some ⟨w.id, w.third⟩ ∧
          ((v = .slip ∧ ∃ q, o.lastSeq = some q ∧ w.seq ≠ q + 1#8) ∨
            (v = .good ∧ ∀ q, o.lastSeq = some q → w.seq = q + 1#8))))

/-- The record with the counts that the verdict `v` makes (R141, R142). -/
def PortRec.counted (o : PortRec) (v : Verdict) (seq : Option Byte) (latest : Option LatestWord) : PortRec :=
  { o with
    lastSeq := seq, latest := latest
    validRun := if v.valid = true then min 16 (o.validRun + 1) else 0
    invalidRun := if v.valid = true then 0 else min 8 (o.invalidRun + 1)
    window := (o.window ++ [v != .good]).drop (if 64 < o.window.length + 1 then 1 else 0)
    cleanRun := if o.state = .degraded ∧ v = .good then min 64 (o.cleanRun + 1) else 0 }

section verdict

variable {o : PortRec} {v : Verdict} {seq : Option Byte} {latest : Option LatestWord}

/-- The model's verdict and its record of the word are those of the ended block. -/
theorem PortRec.BlockEnds.recorded (h : o.BlockEnds v seq latest) :
    o.verdict = v ∧ o.recordWord v = { o with lastSeq := seq, latest := latest } := by
  obtain ⟨hw, rfl, rfl, rfl⟩ | ⟨w, hw, ⟨hbad, rfl, rfl, rfl⟩ | ⟨hfit, rfl, rfl, hseq⟩⟩ := h
  · exact ⟨o.verdict_none hw, o.recordWord_invalid _ rfl⟩
  · exact ⟨(o.verdict_some hw).trans (if_pos (wordChecks_eq_false.2 hbad)), o.recordWord_invalid _ rfl⟩
  · have hchecks : ¬ wordChecks w = false := fun hbad => wordChecks_eq_false.1 hbad hfit
    have hrecord (hv : v.valid = true) :
        o.recordWord v = { o with lastSeq := some w.seq, latest := some ⟨w.id, w.third⟩ } := by
      obtain ⟨hlast, hlatest⟩ := o.recordWord_valid v hw hv
      rw [o.recordWord_frame, hlast, hlatest]
    rw [o.verdict_some hw, if_neg hchecks]
    obtain ⟨rfl, q, hq, hne⟩ | ⟨rfl, hnext⟩ := hseq
    · exact ⟨if_neg fun hnext => hne (hnext q hq), hrecord rfl⟩
    · exact ⟨if_pos hnext, hrecord rfl⟩

/-- The error window drops its oldest block once it would hold more than 64 (R142). -/
theorem PortRec.updateCounts_window_drop (p : PortRec) (v : Verdict) : (p.updateCounts v).window =
    (p.window ++ [v != .good]).drop (if 64 < p.window.length + 1 then 1 else 0) := by
  rw [PortRec.updateCounts, ← v.error_eq]
  dsimp only
  rw [List.length_append, List.length_singleton]
  split
  · rfl
  · rfl

theorem PortRec.BlockEnds.counted_eq (h : o.BlockEnds v seq latest) :
    (o.recordWord o.verdict).updateCounts o.verdict = o.counted v seq latest := by
  obtain ⟨hv, hrecord⟩ := h.recorded
  rw [hv, hrecord, PortRec.updateCounts_frame, PortRec.updateCounts_window_drop]
  rfl

/-- A judging port's boundary work is the transition that the counts cause, with the event of its verdict. -/
theorem PortRec.boundary_counted (port : Port) (hs : o.state ≠ .off) (hj : o.judging = true)
    (h : o.BlockEnds v seq latest) : o.boundary port = ({ (o.counted v seq latest).transition.1 with word := none },
      verdictEvent port o (o.counted v seq latest) (o.counted v seq latest).transition.1 v
        (o.counted v seq latest).transition.2) := by
  rw [PortRec.boundary_judging port o hs hj, PortRec.judge, h.counted_eq, h.recorded.1]

/-! ### What the counts amount to -/

theorem PortRec.counted_validRun_full : 16 ≤ (o.counted v seq latest).validRun ↔ 15 ≤ o.validRun ∧ v.valid = true := by
  rw [PortRec.counted]; dsimp only
  split
  · next hv => simp only [hv, and_true]; omega
  · next hv => simp [hv]

theorem PortRec.counted_invalidRun_full :
    8 ≤ (o.counted v seq latest).invalidRun ↔ 7 ≤ o.invalidRun ∧ v.valid = false := by
  rw [PortRec.counted]; dsimp only
  split
  · next hv => simp [hv]
  · next hv => simp only [Bool.eq_false_iff.2 hv, and_true]; omega

theorem PortRec.counted_cleanRun_full (hs : o.state = .degraded) :
    64 ≤ (o.counted v seq latest).cleanRun ↔ 63 ≤ o.cleanRun ∧ v = .good := by
  rw [PortRec.counted]; dsimp only
  by_cases hv : v = .good
  · simp only [hs, hv, and_self, and_true, if_true]; omega
  · simp [hv]

/-! ### The link state that the counts cause -/

/-- A port that seeks, or is DOWN, comes UP with its sixteenth valid word in a row (R143). -/
theorem PortRec.counted_comesUp (hs : o.state = .seeking ∨ o.state = .down) (hrun : 15 ≤ o.validRun) (hv : v.valid = true) :
    (o.counted v seq latest).transition = ({ o.counted v seq latest with
      state := .up, validRun := 0, invalidRun := 0, cleanRun := 0, window := [] }, some .validRun) :=
  ((o.counted v seq latest).transition_seeking hs).trans (if_pos (PortRec.counted_validRun_full.2 ⟨hrun, hv⟩))

/-- Short of that run it stays as it is. -/
theorem PortRec.counted_seeks (hs : o.state = .seeking ∨ o.state = .down) (h : ¬ (15 ≤ o.validRun ∧ v.valid = true)) :
    (o.counted v seq latest).transition = (o.counted v seq latest, none) :=
  ((o.counted v seq latest).transition_seeking hs).trans (if_neg (mt PortRec.counted_validRun_full.1 h))

/-- A port that is UP degrades with the fourth error block in its window (R144). -/
theorem PortRec.counted_degrades (hs : o.state = .up) (hn : 4 ≤ (o.counted v seq latest).windowCount) :
    (o.counted v seq latest).transition =
      ({ o.counted v seq latest with state := .degraded, cleanRun := 0 }, some .errorWindow) :=
  ((o.counted v seq latest).transition_up hs).trans (if_pos hn)

/-- A DEGRADED port goes DOWN with its eighth block in a row without a valid word (R146). -/
theorem PortRec.counted_isLost (hs : o.state = .degraded) (hrun : 7 ≤ o.invalidRun) (hv : v.valid = false) :
    (o.counted v seq latest).transition =
      ({ o.counted v seq latest with state := .down, validRun := 0, cleanRun := 0 }, some .lost) :=
  ((o.counted v seq latest).transition_degraded hs).trans (if_pos (PortRec.counted_invalidRun_full.2 ⟨hrun, hv⟩))

/-- A DEGRADED port comes UP with its sixty-fourth good block in a row (R145). -/
theorem PortRec.counted_recovers (hs : o.state = .degraded) (hrun : 63 ≤ o.cleanRun) (hv : v = .good) :
    (o.counted v seq latest).transition =
      ({ o.counted v seq latest with state := .up, cleanRun := 0 }, some .cleanRun) := by
  have hheard : ¬ 8 ≤ (o.counted v seq latest).invalidRun := by
    rw [PortRec.counted_invalidRun_full, hv]
    exact fun hlost => Bool.noConfusion hlost.2
  exact ((o.counted v seq latest).transition_degraded hs).trans
    ((if_neg hheard).trans (if_pos ((PortRec.counted_cleanRun_full hs).2 ⟨hrun, hv⟩)))

/-- Short of these counts a link that is UP or DEGRADED stays as it is. -/
theorem PortRec.counted_stays (h : (o.state = .up ∧ (o.counted v seq latest).windowCount < 4) ∨
      (o.state = .degraded ∧ ¬ (7 ≤ o.invalidRun ∧ v.valid = false) ∧ ¬ (63 ≤ o.cleanRun ∧ v = .good))) :
    (o.counted v seq latest).transition = (o.counted v seq latest, none) := by
  obtain ⟨hs, hfew⟩ | ⟨hs, hheard, hclean⟩ := h
  · exact ((o.counted v seq latest).transition_up hs).trans (if_neg (Nat.not_le.2 hfew))
  · exact ((o.counted v seq latest).transition_degraded hs).trans
      ((if_neg (mt PortRec.counted_invalidRun_full.1 hheard)).trans
        (if_neg (mt (PortRec.counted_cleanRun_full hs).1 hclean)))

/-! ### The LINK event -/

/-- A port's listening flag has changed by R147, its link UP or DEGRADED. -/
theorem listenChanged_iff (hs : o.state = .up ∨ o.state = .degraded) (new : PortRec) : listenChanged o new v = true ↔
    ∃ a b, v.valid = true ∧ o.latest = some a ∧ new.latest = some b ∧ a.third.getLsbD 7 ≠ b.third.getLsbD 7 := by
  have hlink : (o.state == .up || o.state == .degraded) = true := by simpa using hs
  rw [listenChanged, hlink, Bool.true_and, Bool.and_eq_true]
  cases o.latest with
  | none => simp
  | some a =>
    cases new.latest with
    | none => simp
    | some b => simp [LatestWord.listening]

/-- A port that seeks, or is DOWN, raises no LISTEN (R147). -/
theorem listenChanged_seeking (hs : o.state = .seeking ∨ o.state = .down) (new : PortRec) :
    listenChanged o new v = false := by
  rcases hs with hs | hs <;> simp [listenChanged, hs]

section boundary

variable (port : Port) (hs : o.state ≠ .off) (hj : o.judging = true) (h : o.BlockEnds v seq latest)
include hs hj h

/-- A transition is the one thing its LINK event tells (R143 to R148). -/
theorem PortRec.boundary_moves {new : PortRec} {cause : LinkCause}
    (ht : (o.counted v seq latest).transition = (new, some cause)) : (o.boundary port).1 = { new with word := none } ∧
      (o.boundary port).2 =
        [.link port o.state new.state cause (o.counted v seq latest).windowCount new.latest none] := by
  rw [PortRec.boundary_counted port hs hj h, ht]
  exact ⟨rfl, rfl⟩

/-- Where the link state stands there is at most the LISTEN event (R147). -/
theorem PortRec.boundary_stands (ht : (o.counted v seq latest).transition = (o.counted v seq latest, none)) :
    (o.boundary port).1 = { o.counted v seq latest with word := none } ∧ (o.boundary port).2 =
      if listenChanged o (o.counted v seq latest) v = true
      then [.link port o.state o.state .listen (o.counted v seq latest).windowCount latest none] else [] := by
  rw [PortRec.boundary_counted port hs hj h, ht]
  exact ⟨rfl, rfl⟩

end boundary

end verdict

/-! ### The five ports -/

/-- Work done port by port, each port's by its own record alone, hands the events over one port after another. -/
theorem State.foldl_portWork (work : Port → PortRec → PortRec × List Event) (l : List Port) (hl : l.Nodup) (s : State) :
    l.foldl (fun t p => (t.setPort p (work p (t.port p)).1).raiseAll (work p (t.port p)).2) s = { s with
      ports := PerPort.of fun p => if p ∈ l then (work p (s.port p)).1 else s.port p
      ex := s.ex.joinAll s.frame (l.flatMap fun p => (work p (s.port p)).2) } := by
  induction l generalizing s with
  | nil => simp only [List.foldl_nil, List.not_mem_nil, if_false, List.flatMap_nil, Exchange.joinAll_nil]; rfl
  | cons q l ih =>
    obtain ⟨hq, hl⟩ := List.nodup_cons.1 hl
    rw [List.foldl_cons, ih hl]
    generalize ht : (s.setPort q (work q (s.port q)).1).raiseAll (work q (s.port q)).2 = t
    have hport (p : Port) : t.port p = if q = p then (work q (s.port q)).1 else s.port p := by
      rw [← ht]; exact s.setPort_port q p _
    have hevents : (l.flatMap fun p => (work p (t.port p)).2) = l.flatMap fun p => (work p (s.port p)).2 :=
      List.flatMap_congr fun p hp => by rw [hport, if_neg (ne_of_mem_of_not_mem hp hq).symm]
    have hports : (fun p => if p ∈ l then (work p (t.port p)).1 else t.port p) =
        fun p => if p ∈ q :: l then (work p (s.port p)).1 else s.port p := by
      funext p
      by_cases e : q = p
      · subst e; simp [hport, hq]
      · simp [hport, e, Ne.symm e]
    rw [hevents, hports, List.flatMap_cons, Exchange.joinAll_append, ← ht]
    rfl

/-- The Feed Ports' work in port order (R149). -/
theorem State.portsBoundary_eq (s : State) : s.portsBoundary = { s with
    ports := PerPort.of fun p => ((s.port p).boundary p).1
    ex := s.ex.joinAll s.frame (allPorts.flatMap fun p => ((s.port p).boundary p).2) } := by
  have hwork := State.foldl_portWork PortRec.boundary allPorts (by decide) s
  simp only [mem_allPorts, if_true] at hwork
  exact hwork

/-- Settles O29: the ports work one after another, each by the transition of its judged record, link state by link state. -/
theorem verdictMovesLink : Obligations.VerdictMovesLink := by
  intro s ph howed
  refine ⟨_, fun p => ((s.port p).boundary p).2, exec_blockBoundary_owed ph howed, ?_, fun p o ho => ?_⟩
  · rw [State.unitWork, State.portsBoundary_eq]
    simp only [allPorts, List.flatMap_cons, List.flatMap_nil, List.append_nil, List.append_assoc]
    rfl
  · have hport : State.port (State.unitWork { s with owed := s.owed.filter fun v => v != .feedPorts } .feedPorts ph) p =
        (o.boundary p).1 := by
      subst ho; rw [State.unitWork, State.portsBoundary_eq]; exact PerPort.of_get _ p
    simp only [hport, ← ho]
    refine ⟨fun hoff => by simp [PortRec.boundary, hoff], fun hon hj => by simp [PortRec.boundary, hon, hj],
      fun v valid seq latest k n hon hj (hends : o.BlockEnds v seq latest) hvalid hk hn => ?_⟩
    obtain rfl : valid = v.valid := Bool.eq_iff_iff.2 (hvalid.trans v.valid_iff.symm)
    obtain rfl : k = { o.counted v seq latest with word := none } := hk
    obtain rfl : n = (o.counted v seq latest).windowCount := hn
    have hmoves {new cause} := PortRec.boundary_moves p hon hj hends (new := new) (cause := cause)
    have hstands := PortRec.boundary_stands p hon hj hends
    refine ⟨fun hs => ⟨fun hrun hv => hmoves (PortRec.counted_comesUp hs hrun hv), fun hshort => ?_⟩,
      fun hs hn => hs ▸ hmoves (PortRec.counted_degrades hs hn),
      fun hs hrun hv => hs ▸ hmoves (PortRec.counted_isLost hs hrun hv),
      fun hs hrun hv => hs ▸ hmoves (PortRec.counted_recovers hs hrun hv), fun hstay => ?_⟩
    · have hsame := hstands (PortRec.counted_seeks hs hshort)
      rwa [listenChanged_seeking hs, if_neg Bool.false_ne_true] at hsame
    · have hs : o.state = .up ∨ o.state = .degraded := hstay.imp And.left And.left
      obtain ⟨hrecord, hevents⟩ := hstands (PortRec.counted_stays hstay)
      exact ⟨hrecord, fun hflag => hevents.trans (if_pos ((listenChanged_iff hs _).2 hflag)),
        fun hflag => hevents.trans (if_neg (mt (listenChanged_iff hs _).1 hflag))⟩

end Sys2Proof.Machine
end

section
/-! PROOFS. The clock record through every command: the operations that leave it alone, and the Clock Unit's own, which keep
the ties of R151. -/

namespace Sys2Proof.Machine

/-! ### The line and the arbiter -/

section line
variable (s : State)

theorem State.arbitrate_clock (first : Option ReqId) : (s.arbitrate first).clock = s.clock := by
  have hstart (r : ReqId) : (s.startFor r).clock = s.clock := by unfold State.startFor; split <;> rfl
  unfold State.arbitrate
  split
  · rfl
  · split
    · rfl
    · exact hstart _

theorem State.txSucceeds_clock (t : InFlight) : (s.txSucceeds t).clock = s.clock := by
  have hchans (u : State) (b : BoardId) (data : List Byte) : (u.readbackChans b data).clock = u.clock :=
    foldl_keeps (g := State.clock) (fun _ _ => State.putChan_clock _ _ _) _ _
  unfold State.txSucceeds
  split
  · rw [State.stepSucceeds, State.putChan_clock, State.setBoard_clock]
  · unfold State.readbackSucceeds
    dsimp only
    split
    · rw [State.raise_clock, hchans, State.setBoard_clock]
    · rw [hchans, State.setBoard_clock]

theorem State.txFails_clock (t : InFlight) (err : LineError) : (s.txFails t err).clock = s.clock := by
  have hlost (u : State) (hu : u.clock = s.clock) (p : Bool) :
      (if p then u.boardOffline t.board err else u).clock = s.clock := by
    split
    · rw [State.boardOffline, State.raise_clock, foldl_keeps (g := State.clock) fun _ _ => State.setChan_clock _ _ _, hu]
    · exact hu
  have hstep (c : ChanId) : (s.stepFails c err).clock = s.clock := by
    rw [State.stepFails, State.raise_clock, State.putChan_clock, State.setBoard_clock]
  unfold State.txFails
  cases t.kind with
  | step c sent => exact hlost _ (hstep c) _
  | readback => exact hlost _ (s.setBoard_clock _ _) _

theorem State.receiveChar_clock (ch : LineChar) : (s.receiveChar ch).clock = s.clock := by
  have hend (t : InFlight) : (s.txComplete t).clock = s.clock := by
    unfold State.txComplete
    split
    · exact s.txSucceeds_clock t
    · exact s.txFails_clock t _
  unfold State.receiveChar
  split
  · rfl
  · dsimp only
    split
    · exact hend _
    · rfl

theorem State.windowExpires_clock : s.windowExpires.clock = s.clock := by
  unfold State.windowExpires
  split
  · rfl
  · split
    · exact s.txFails_clock _ _
    · rfl

theorem State.retryReadback_clock (b : BoardId) : (s.retryReadback b).clock = s.clock := by
  unfold State.retryReadback; split <;> rfl

end line

/-! ### The steps of a channel, samples and the close of a meter interval -/

section samples
variable (s : State)

theorem State.forceStep_clock (c : ChanId) : (s.forceStep c).clock = s.clock := by
  unfold State.forceStep; split <;> rfl

theorem State.applyPending_clock (c : ChanId) : (s.applyPending c).clock = s.clock := by
  unfold State.applyPending; split <;> rfl

theorem State.finishRamp_clock (c : ChanId) : (s.finishRamp c).clock = s.clock := by
  unfold State.finishRamp; split <;> rfl

theorem State.catchUp_clock : s.catchUp.clock = s.clock := by
  have hdue (t : State) (c : ChanId) : (t.chanDue c).clock = t.clock := by
    rw [State.chanDue, State.applyPending_clock, State.finishRamp_clock, State.forceStep_clock]
  unfold State.catchUp
  split
  · rfl
  · rw [State.arbitrate_clock, State.windowExpires_clock, foldl_keeps (g := State.clock) hdue, State.setEx_clock]

theorem State.judgeLane_clock (g : LaneId) (f : LaneInput) : (s.judgeLane g f).clock = s.clock := by
  unfold State.judgeLane
  dsimp only
  split <;> rfl

theorem State.exchangeSettled_clock : s.exchangeSettled.clock = s.clock := by
  rw [State.exchangeSettled, State.setEx_clock, State.closeInterval_frame]

end samples

/-! ### Block boundaries -/

section boundary
variable {s : State}

/-- Every unit's boundary work keeps the ties: the Clock Unit's by its own law, the others' as they leave the record alone. -/
theorem State.unitWork_clockLaw (u : BoundaryUnit) (ph : PhaseInput) (h : s.clock.Law) : (s.unitWork u ph).clock.Law := by
  cases u with
  | meterGuard =>
    have hchan (t : State) (c : ChanId) : (t.meterChan c).clock = t.clock := by
      obtain ⟨ch, -, he⟩ := t.meterChan_cases c
      rw [he]
    change s.meterBoundary.clock.Law
    rwa [State.meterBoundary, foldl_keeps (g := State.clock) hchan]
  | preampLine => exact h
  | sceneStore =>
    change s.sceneBoundary.clock.Law
    rcases s.sceneBoundary_cases with he | he <;> rw [he]
    · exact h
    · rwa [State.exchangeBanks_frame]
  | feedPorts =>
    change s.portsBoundary.clock.Law
    rwa [State.portsBoundary_frame]
  | exchange => exact h
  | clock => exact State.clockBoundary_law ph h

theorem State.boundaryWork_clockLaw (us : List BoundaryUnit) (ph : PhaseInput) (h : s.clock.Law) :
    (s.boundaryWork us ph).clock.Law :=
  State.boundaryWork_induct (P := fun t => t.clock.Law) (fun _ _ ht => ht) (fun _ u _ _ ht => State.unitWork_clockLaw u ph ht) h

theorem State.boundaryRest_clockLaw (h : s.clock.Law) : s.boundaryRest.clock.Law := by
  rw [State.boundaryRest_eq]
  split
  · exact h
  · rw [State.exchangeSettled_clock, State.boundaryMade, foldl_keeps (g := State.clock) State.retryReadback_clock]
    exact State.clockSettled_law (State.boundaryWork_clockLaw _ _ h)

end boundary

/-! ### Changes of owner and requests -/

section requests
variable (s : State) (t : TakeHead)

theorem State.changeOwner_clock (c : ChanId) (new : Option Feed) (cause : OwnCause) (tag : Half) :
    (s.changeOwner c new cause tag).clock = s.clock := by rw [State.changeOwner_eq]

theorem State.claimFree_clock (c : ChanId) (f : Feed) (tag : Half) : (s.claimFree c f tag).clock = s.clock := by
  rw [State.claimFree, State.changeOwner_clock, State.leaveTrack, State.setXp_clock]

theorem State.takeOver_clock (c : ChanId) (e f : Feed) (tag : Half) : (s.takeOver c e f tag).clock = s.clock := by
  rw [State.takeOver, State.changeOwner_clock, State.leaveTrack, State.setXp_clock, State.enterTrack, State.setXp_clock]

theorem State.giveUp_clock (c : ChanId) (f : Feed) (cause : OwnCause) (tag : Half) :
    (s.giveUp c f cause tag).clock = s.clock := by
  rw [State.giveUp, State.changeOwner_clock, State.enterTrack, State.setXp_clock]

theorem State.withChan_clock {k : ChanId → Source → State} (hk : ∀ c src, (k c src).clock = s.clock) :
    (s.withChan t k).clock = s.clock := by
  unfold State.withChan
  split
  · rfl
  · rfl
  · exact hk _ _

theorem State.withXp_clock {k : ChanId → Feed → State} (hk : ∀ c f, (k c f).clock = s.clock) :
    (s.withXp t k).clock = s.clock := by
  unfold State.withXp
  split
  · rfl
  · rfl
  · rfl
  · split
    · exact hk _ _
    · rfl

theorem State.withFeed_clock {k : Feed → State} (hk : ∀ f, (k f).clock = s.clock) : (s.withFeed t k).clock = s.clock := by
  unfold State.withFeed
  split
  · rfl
  · rfl
  · split
    · exact hk _
    · rfl

theorem State.withSource_clock {k : State} (hk : k.clock = s.clock) : (s.withSource t k).clock = s.clock := by
  unfold State.withSource
  split
  · rfl
  · exact hk

theorem State.holdOrFinish_clock (changes : Bool) (r : Result) (reply : XpReply) :
    (s.holdOrFinish t changes r reply).clock = s.clock := by
  unfold State.holdOrFinish; split <;> rfl

@[simp] theorem State.serveSetAnalog_clock (code : Half) : (s.serveSetAnalog t code).clock = s.clock := by
  refine s.withChan_clock t fun c src => ?_
  dsimp only
  split
  · rfl
  · split
    · rfl
    · exact State.holdOrFinish_clock _ _ _ _ _

@[simp] theorem State.serveSetPad_clock (v : Byte) : (s.serveSetPad t v).clock = s.clock := by
  refine s.withChan_clock t fun c src => ?_
  dsimp only
  split
  · rfl
  · split <;> rfl

@[simp] theorem State.serveSetPhantom_clock (v : Byte) : (s.serveSetPhantom t v).clock = s.clock := by
  refine s.withChan_clock t fun c src => ?_
  dsimp only
  split
  · rfl
  · split
    · rfl
    · split <;> rfl

@[simp] theorem State.serveReadChannel_clock : (s.serveReadChannel t).clock = s.clock := s.withChan_clock t fun _ _ => rfl

@[simp] theorem State.serveResync_clock : (s.serveResync t).clock = s.clock :=
  s.withChan_clock t fun c _ => s.retryReadback_clock (boardOf c)

@[simp] theorem State.serveSetGuard_clock (e : Byte) (threshold hold floor rest : Half) :
    (s.serveSetGuard t e threshold hold floor rest).clock = s.clock := by
  refine s.withChan_clock t fun c src => ?_
  dsimp only
  split
  · rfl
  · split <;> rfl

@[simp] theorem State.serveSetTrim_clock (trim : Half) : (s.serveSetTrim t trim).clock = s.clock :=
  s.withXp_clock t fun _ _ => State.holdOrFinish_clock _ _ _ _ _

@[simp] theorem State.serveSetMode_clock (v : Byte) : (s.serveSetMode t v).clock = s.clock := by
  refine s.withXp_clock t fun c f => ?_
  dsimp only
  split
  · rfl
  · split
    · rfl
    · split <;> rfl
    · split <;> rfl

@[simp] theorem State.serveSetFlags_clock (mute invert : Byte) : (s.serveSetFlags t mute invert).clock = s.clock := by
  refine s.withXp_clock t fun c f => ?_
  dsimp only
  split
  · rfl
  · exact State.holdOrFinish_clock _ _ _ _ _

@[simp] theorem State.serveClaim_clock : (s.serveClaim t).clock = s.clock := by
  refine s.withXp_clock t fun c f => ?_
  dsimp only
  split
  · rfl
  · split
    · rw [State.hold_clock, State.claimFree_clock]
    · split
      · rfl
      · split
        · rw [State.hold_clock, State.takeOver_clock]
        · rfl

@[simp] theorem State.serveRelease_clock : (s.serveRelease t).clock = s.clock := by
  refine s.withXp_clock t fun c f => ?_
  dsimp only
  split
  · rw [State.hold_clock, State.giveUp_clock]
  · rfl

@[simp] theorem State.serveSetFeed_clock (enable senior : Byte) : (s.serveSetFeed t enable senior).clock = s.clock := by
  refine s.withFeed_clock t fun f => ?_
  dsimp only
  split
  · rfl
  · rw [State.finish_clock]
    split
    · rw [State.disableFeed_eq, State.withGivenUp]
    · split
      · rw [State.enableFeed_eq]
      · rfl

@[simp] theorem State.serveLoadSlotmap_clock (map : Word) : (s.serveLoadSlotmap t map).clock = s.clock := by
  refine s.withFeed_clock t fun f => ?_
  dsimp only
  split
  · rfl
  · split <;> rfl

@[simp] theorem State.serveLoadShadow_clock (table : Word) (first count : Byte) :
    (s.serveLoadShadow t table first count).clock = s.clock := by
  refine s.withSource_clock t ?_
  dsimp only
  split
  · rfl
  · split
    · rfl
    · split
      · rfl
      · split
        · rfl
        · rw [State.finish_clock]

@[simp] theorem State.serveSwap_clock (mask : ChanMask) : (s.serveSwap t mask).clock = s.clock := by
  refine s.withSource_clock t ?_
  split
  · rfl
  · split <;> rfl

@[simp] theorem State.serveSetExchange_clock (select : Byte) (threshold poll meter : Half) (unitId : Byte) :
    (s.serveSetExchange t select threshold poll meter unitId).clock = s.clock := by
  refine s.withSource_clock t ?_
  split
  · rfl
  · exact s.exchangeSettled_clock

variable {s}

/-- SET_CLOCK is the one request that moves the clock record, and it keeps the ties. -/
theorem State.serveSetClock_clockLaw (source : Byte) (h : s.clock.Law) : (s.serveSetClock t source).clock.Law := by
  unfold State.serveSetClock State.withSource
  split
  · exact h
  · split
    · exact h
    · exact State.selectClock_law _ _ (State.clockSettled_law h)

theorem State.serveKind_clockLaw (h : s.clock.Law) : (s.serveKind t).clock.Law := by
  unfold State.serveKind
  dsimp only
  split
  · rwa [State.serveSetAnalog_clock]
  · rwa [State.serveSetPad_clock]
  · rwa [State.serveSetPhantom_clock]
  · rwa [State.serveReadChannel_clock]
  · rwa [State.serveResync_clock]
  · rwa [State.serveSetGuard_clock]
  · rwa [State.serveSetTrim_clock]
  · rwa [State.serveSetMode_clock]
  · rwa [State.serveSetFlags_clock]
  · rwa [State.serveClaim_clock]
  · rwa [State.serveRelease_clock]
  · rwa [State.serveSetFeed_clock]
  · rwa [State.serveLoadSlotmap_clock]
  · rwa [State.serveLoadShadow_clock]
  · rwa [State.serveSwap_clock]
  · exact State.serveSetClock_clockLaw t _ h
  · rwa [State.serveSetExchange_clock]
  · exact h

theorem State.walkStep_clockLaw (h : s.clock.Law) : s.walkStep.clock.Law := by
  unfold State.walkStep
  dsimp only
  split
  · split
    · exact h
    · split
      · exact h
      · exact State.serveKind_clockLaw _ h
  · exact h

/-- A request keeps the ties where its take does. -/
theorem State.request_clockLaw {r : ReqHead} {kind : Byte} {args : List Byte} {serve : State → TakeHead → State} {u : State}
    (h : s.clock.Law) (hu : s.request r kind args serve = .next u)
    (hserve : ∀ v t, v.clock.Law → (serve v t).clock.Law) : u.clock.Law := by
  obtain rfl := Host.Outcome.next.inj hu
  have hoffer : (s.setEx (s.ex.offer r kind args)).clock.Law := h
  split
  · split
    · exact hserve _ _ hoffer
    · exact h
  · exact hoffer

/-- A request whose take leaves the clock record alone keeps the ties. -/
theorem State.request_clockLaw_of_eq {r : ReqHead} {kind : Byte} {args : List Byte} {serve : State → TakeHead → State}
    {u : State} (h : s.clock.Law) (hu : s.request r kind args serve = .next u)
    (hserve : ∀ v t, (serve v t).clock = v.clock) : u.clock.Law :=
  State.request_clockLaw h hu fun v t hv => by rwa [hserve]

end requests

/-! ### Every command -/

/-- Every command keeps the ties of R151. -/
theorem exec_clockLaw {i : Instr} {s t : State} (h : s.clock.Law) (ht : exec i s = .next t) : t.clock.Law := by
  cases i with
  | setClock r source =>
    simp only [exec] at ht
    exact State.request_clockLaw h ht fun v t hv => State.serveSetClock_clockLaw t source hv
  | badKind r kind =>
    simp only [exec] at ht
    refine State.request_clockLaw h ht fun v t hv => ?_
    split
    · exact State.serveKind_clockLaw t hv
    · exact hv
  | chainWalk writes =>
    simp only [exec, execChainWalk] at ht
    split at ht
    · cases ht
    · obtain rfl := Host.Outcome.next.inj ht
      exact State.walkStep_clockLaw (s := s.setEx _) h
  | setAnalog | setPad | setPhantom | readChannel | resync | setGuard | setTrim | setMode | setFlags | claim | release
  | setFeed | loadSlotmap | loadShadow | swap | setExchange =>
    simp only [exec] at ht
    exact State.request_clockLaw_of_eq h ht fun v t => by simp
  | powerOnReset => obtain rfl := Host.Outcome.next.inj ht; exact Clock.reset_law
  | samplePeriod =>
    rw [exec_samplePeriod] at ht
    obtain rfl := Host.Outcome.next.inj ht
    refine State.boundaryRest_clockLaw ?_
    rw [State.sampled_clock]
    change s.catchUp.clock.Law
    rwa [State.catchUp_clock]
  | blockBoundary us ph => obtain rfl := Host.Outcome.next.inj ht; exact State.boundaryWork_clockLaw us ph h
  | swapApply => obtain rfl := Host.Outcome.next.inj ht; exact State.boundaryWork_clockLaw _ _ h
  | acquisitionTimeout => obtain rfl := Host.Outcome.next.inj ht; exact State.acquisitionGivesUp_law h
  | clockRetry => obtain rfl := Host.Outcome.next.inj ht; exact State.clockRetries_law h
  | laneFrame g f => obtain rfl := Host.Outcome.next.inj ht; rwa [State.judgeLane_clock]
  | arbiterDecision first => obtain rfl := Host.Outcome.next.inj ht; rwa [State.arbitrate_clock]
  | answerCharacter ch => obtain rfl := Host.Outcome.next.inj ht; rwa [State.receiveChar_clock]
  | answerWindowExpiry => obtain rfl := Host.Outcome.next.inj ht; rwa [State.windowExpires_clock]
  | forcedStep c => obtain rfl := Host.Outcome.next.inj ht; rwa [State.forceStep_clock]
  | pendingApplication c => obtain rfl := Host.Outcome.next.inj ht; rwa [State.applyPending_clock]
  | rampEnd c => obtain rfl := Host.Outcome.next.inj ht; rwa [State.finishRamp_clock]
  | readbackRetry b => obtain rfl := Host.Outcome.next.inj ht; rwa [State.retryReadback_clock]
  | meterClose => obtain rfl := Host.Outcome.next.inj ht; rwa [State.closeInterval_frame]
  | poke v => obtain rfl := Host.Outcome.next.inj ht; split <;> exact h
  | clear on => obtain rfl := Host.Outcome.next.inj ht; split <;> exact h
  | wordClockEdge | returnWord | pollCountdownExpiry | replyWrite | releaseWrite | noticeWrite | noticeMaskWrite | blocks
  | enable | exchangeClear | registerWriteIgnored | reportWrite => obtain rfl := Host.Outcome.next.inj ht; exact h

/-- Settles O7: the ties do not speak of the queue of commands, so a step keeps them as its command does. -/
theorem clockStaysTied : Obligations.ClockStaysTied := by
  unfold Obligations.ClockStaysTied
  intro s t h ht
  unfold step at ht
  split at ht
  · obtain rfl := Host.Outcome.next.inj ht
    exact h
  · next i rest _ =>
    have hrest : ({ s with pending := rest } : State).clock.Law := h
    exact exec_clockLaw hrest ht

end Sys2Proof.Machine
end

section
/-! PROOFS. The queue of commands and the frame counter (R152). -/

namespace Sys2Proof.Machine

/-- Settles O1: a step takes the front of the queue by definition. -/
theorem stepRunsFrontCommand : Obligations.StepRunsFrontCommand := fun _ _ _ => rfl

/-- No command but POWER_ON_RESET and SAMPLE_PERIOD moves the frame counter or the waiting commands. -/
theorem exec_still {i : Instr} {s t : State} (hreset : i ≠ .powerOnReset) (hsample : i ≠ .samplePeriod)
    (ht : exec i s = .next t) : t.still = s.still := by
  cases i with
  | powerOnReset => exact absurd rfl hreset
  | samplePeriod => exact absurd rfl hsample
  | chainWalk writes =>
    simp only [exec, execChainWalk] at ht
    split at ht
    · cases ht
    · obtain rfl := Host.Outcome.next.inj ht
      rw [State.walkStep_still, State.setEx_still]
  | badKind r kind =>
    simp only [exec] at ht
    refine State.request_still s _ _ _ _ (fun u t => ?_) ht
    split
    · exact u.serveKind_still t
    · exact u.finish_still t _ _
  | setAnalog | setPad | setPhantom | readChannel | resync | setGuard | setTrim | setMode | setFlags | claim | release
  | setFeed | loadSlotmap | loadShadow | swap | setClock | setExchange =>
    simp only [exec] at ht
    exact State.request_still s _ _ _ _ (fun u t => by simp) ht
  | poke | clear => obtain rfl := Host.Outcome.next.inj ht; split <;> rfl
  | forcedStep c => obtain rfl := Host.Outcome.next.inj ht; unfold State.forceStep; split <;> rfl
  | pendingApplication c => obtain rfl := Host.Outcome.next.inj ht; unfold State.applyPending; split <;> rfl
  | rampEnd c => obtain rfl := Host.Outcome.next.inj ht; unfold State.finishRamp; split <;> rfl
  | laneFrame | arbiterDecision | answerCharacter | answerWindowExpiry | blockBoundary | swapApply | acquisitionTimeout
  | clockRetry | readbackRetry | meterClose => obtain rfl := Host.Outcome.next.inj ht; simp
  | wordClockEdge | returnWord | pollCountdownExpiry | replyWrite | releaseWrite | noticeWrite | noticeMaskWrite | blocks
  | enable | exchangeClear | registerWriteIgnored | reportWrite => obtain rfl := Host.Outcome.next.inj ht; rfl

/-- Settles O2: beside the commands that leave both alone, the power-on values and the end of a period give the counter. -/
theorem onlySamplePeriodsCount : Obligations.OnlySamplePeriodsCount := by
  unfold Obligations.OnlySamplePeriodsCount
  intro c s t ht
  by_cases hreset : c = .powerOnReset
  · subst hreset
    obtain rfl := Host.Outcome.next.inj ht
    exact ⟨rfl, rfl⟩
  by_cases hsample : c = .samplePeriod
  · subst hsample
    obtain rfl := Host.Outcome.next.inj ht
    exact Prod.mk.inj (execSamplePeriod_still s)
  obtain ⟨hpending, hframe⟩ := State.still_iff.1 (exec_still hreset hsample ht)
  refine ⟨hpending, ?_⟩
  split
  · exact absurd rfl hreset
  · exact absurd rfl hsample
  · exact hframe

end Sys2Proof.Machine
end

section
/-! PROOFS. The Clock Unit's work at a boundary, by lock state and holdover form (R154 to R160, R162). -/

namespace Sys2Proof.Machine

/-! ### A verdict, case by case -/

section judge
variable {k : Clock} (c1 c2 inside : Bool) (rate : Nat)

theorem Clock.judge_internal (hl : k.lock = .locked) (hr : k.ref = .internal) :
    k.judge c1 c2 inside rate = ({ k with heldRate := 48000000 } : Clock).stay := by
  unfold Clock.judge; rw [hl]; exact if_pos hr

/-- A reference just taken begins to be judged (R155). -/
theorem Clock.judge_unarmed (hl : (k.lock = .locked ∧ k.ref ≠ .internal) ∨ k.lock = .acquiring) (ha : k.armed = false) :
    k.judge c1 c2 inside rate = ({ k with armed := true } : Clock).stay := by
  have ha : ¬ k.armed = true := ha ▸ Bool.false_ne_true
  unfold Clock.judge
  rcases hl with ⟨hl, hr⟩ | hl <;> rw [hl]
  · exact (if_neg hr).trans (if_neg ha)
  · exact if_neg ha

theorem Clock.judge_locked (hl : k.lock = .locked) (hr : k.ref ≠ .internal) (ha : k.armed = true) :
    k.judge c1 c2 inside rate = k.keepLock inside rate := by
  unfold Clock.judge; rw [hl]; exact (if_neg hr).trans (if_pos ha)

theorem Clock.judge_acquiring (hl : k.lock = .acquiring) (ha : k.armed = true) :
    k.judge c1 c2 inside rate = k.acquire inside rate := by
  unfold Clock.judge; rw [hl]; exact if_pos ha

theorem Clock.judge_resume (hl : k.lock = .holdover) (hf : k.form = .resume) :
    k.judge c1 c2 inside rate = k.beginAcquiring k.ref .resume := by
  unfold Clock.judge; rw [hl, hf]

theorem Clock.judge_rest (hl : k.lock = .holdover) (hf : k.form = .rest) :
    k.judge c1 c2 inside rate = ({ k with retry := k.retry - 1 } : Clock).stay := by
  unfold Clock.judge; rw [hl, hf]

/-- A WAIT holdover takes the reference that has become fit, if there is one; INTERNAL is none to wait for (R160). -/
theorem Clock.judge_wait {found : ClockRef} (hl : k.lock = .holdover) (hf : k.form = .wait)
    (hfound : found = if k.preferred = .portC ∧ c1 = true then .c1 else if k.preferred = .portC ∧ c2 = true then .c2
      else if k.preferred = .external ∧ k.extFit = true then .external else .nothing) :
    k.judge c1 c2 inside rate = if found = .nothing then k.stay else k.beginAcquiring found .found := by
  have hjudge : k.judge c1 c2 inside rate =
      if chooseRef k.preferred c1 c2 k.extFit = .nothing ∨ chooseRef k.preferred c1 c2 k.extFit = .internal then k.stay
      else k.beginAcquiring (chooseRef k.preferred c1 c2 k.extFit) .found := by
    unfold Clock.judge; rw [hl, hf]
  rw [hjudge, hfound]
  cases k.preferred with
  | internal => simp [chooseRef]
  | portC => cases c1 <;> cases c2 <;> simp [chooseRef, selectC]
  | external => cases k.extFit <;> simp [chooseRef]

end judge

section counts
variable {k : Clock} {inside : Bool} (rate : Nat)

theorem Clock.keepLock_inside (hi : inside = true) :
    k.keepLock inside rate = ({ k with outRun := 0, heldRate := rate } : Clock).stay := if_pos hi

theorem Clock.keepLock_outside (hi : inside = false) (hn : k.outRun < 3) :
    k.keepLock inside rate = ({ k with outRun := k.outRun + 1 } : Clock).stay :=
  (if_neg (hi ▸ Bool.false_ne_true)).trans (if_neg (by dsimp only; omega))

/-- The fourth OUTSIDE block in a row loses lock (R157). -/
theorem Clock.keepLock_lost (hi : inside = false) (hn : 3 ≤ k.outRun) :
    k.keepLock inside rate = { counted := { k with outRun := k.outRun + 1 }
                               after := { k with lock := .holdover, form := .resume, outRun := 0 }
                               cause := some .lostLock, lost := true } :=
  (if_neg (hi ▸ Bool.false_ne_true)).trans (if_pos (by dsimp only; omega))

/-- The 64th INSIDE block in a row declares lock (R156). -/
theorem Clock.acquire_locked (hi : inside = true) (hn : 63 ≤ k.inRun) :
    k.acquire inside rate = { counted := { k with acq := k.acq + 1, inRun := 64 }
                              after := { k with lock := .locked, heldRate := rate, inRun := 0, outRun := 0, acq := 0 }
                              cause := some .locked, lost := false } := by
  have hrun : (if inside then min 64 (k.inRun + 1) else 0) = 64 := by rw [if_pos hi]; omega
  unfold Clock.acquire
  rw [hrun]
  rfl

theorem Clock.acquire_counts (h : inside = false ∨ k.inRun < 63) :
    k.acquire inside rate =
      ({ k with acq := k.acq + 1, inRun := if inside = true then k.inRun + 1 else 0 } : Clock).stay := by
  have hshort (hi : inside = true) : k.inRun < 63 := h.resolve_left fun hf => Bool.false_ne_true (hf.symm.trans hi)
  have hrun : (if inside then min 64 (k.inRun + 1) else 0) = if inside = true then k.inRun + 1 else 0 := by
    split
    · next hi => have := hshort hi; omega
    · rfl
  unfold Clock.acquire
  rw [hrun]
  refine if_neg ?_
  dsimp only
  split
  · next hi => have := hshort hi; omega
  · omega

end counts

/-! ### A change put in force -/

/-- The exchange after a change of lock state: LOCK is set if lock was lost, and then the event joins (R157, R162). -/
theorem State.putClock_ex (s : State) (m : ClockMove) (tag : Option Half) {cause : ClockCause} (hc : m.cause = some cause) :
    (s.putClock m tag).ex =
      (if m.lost = true then { s.ex with sticky := { s.ex.sticky with lock := true } } else s.ex).join
        ⟨s.frame, clockEvent m.counted m.after cause m.after.c1 m.after.c2 tag⟩ := by
  unfold State.putClock
  rw [hc]
  cases m.lost with
  | false => rw [Bool.or_false]; rfl
  | true => rw [Bool.or_true]; rfl

/-- A boundary that only counts touches nothing of the exchange. -/
theorem State.putClock_stay_ex (s : State) (k : Clock) (tag : Option Half) : (s.putClock k.stay tag).ex = s.ex := by
  change { s.ex with sticky := { s.ex.sticky with lock := s.ex.sticky.lock || false } } = s.ex
  rw [Bool.or_false]

/-! ### The work at a boundary -/

/-- The clock record with the fitness and the link states as the boundary reads them (R154, R162). -/
def State.clockRead (s : State) : Clock :=
  { s.clock with extFit := s.clock.edge, edge := false, c1 := (s.port .c1).state, c2 := (s.port .c2).state }

/-- What the boundary makes of the clock record (R155 to R160). -/
def State.clockMove (s : State) (ph : PhaseInput) : ClockMove :=
  let c1 := (s.port .c1).state.fit
  let c2 := (s.port .c2).state.fit
  if s.clockRead.ref ≠ .nothing ∧ s.clockRead.ref.fit c1 c2 s.clockRead.extFit = false then s.clockRead.leaveUnfit c1 c2
  else s.clockRead.judge c1 c2 (ph.inside && s.refTiming) ph.rate

/-- The marks of the timing that C1 and C2 gave in the ended block, cleared (R155). -/
def State.clearTiming (s : State) : State :=
  { s with ports := { s.ports with c1 := { s.ports.c1 with timing := false }, c2 := { s.ports.c2 with timing := false } } }

theorem State.clearTiming_port (s : State) (p : Port) :
    s.clearTiming.port p = if p = .c1 ∨ p = .c2 then { s.port p with timing := false } else s.port p := by
  cases p <;> rfl

/-- The Clock Unit's work puts that change in force and clears the marks. -/
theorem State.clockBoundary_eq (s : State) (ph : PhaseInput) :
    s.clockBoundary ph = (s.putClock (s.clockMove ph) none).clearTiming := rfl

theorem exec_clockBoundary {s : State} (ph : PhaseInput) (h : s.owed.contains .clock = true) :
    ∃ t, exec (.blockBoundary [.clock] ph) s = .next t ∧
      t = { s with owed := s.owed.filter (fun v => v != .clock), clock := t.clock, ports := t.ports, ex := t.ex } ∧
      (∀ p, t.port p = if p = .c1 ∨ p = .c2 then { s.port p with timing := false } else s.port p) ∧
      t.clock = (s.clockMove ph).after ∧ t.ex = (s.putClock (s.clockMove ph) none).ex := by
  refine ⟨_, exec_blockBoundary_owed ph h, ?_, ?_⟩
  all_goals
    rw [State.unitWork, State.clockBoundary_eq, State.putClock_frame]
  · rfl
  · refine ⟨fun p => State.clearTiming_port _ p, rfl, ?_⟩
    change State.ex (State.putClock _ (s.clockMove ph) none) = _
    unfold State.putClock
    split <;> rfl

/-! ### What is read at a boundary -/

theorem LinkState.fit_iff (l : LinkState) : l.fit = true ↔ l = .up ∨ l = .degraded := by cases l <;> simp [LinkState.fit]

/-- A reference is unfit as R154 judges it; INTERNAL never is, and none is no reference. -/
theorem ClockRef.unfit_iff (r : ClockRef) (c1 c2 ext : Bool) : r ≠ .nothing ∧ r.fit c1 c2 ext = false ↔
    (r = .c1 ∧ c1 = false) ∨ (r = .c2 ∧ c2 = false) ∨ (r = .external ∧ ext = false) := by
  cases r <;> simp [ClockRef.fit]

theorem State.refTiming_iff (s : State) : s.refTiming = true ↔ (s.clock.ref = .c1 → (s.port .c1).timing = true) ∧
    (s.clock.ref = .c2 → (s.port .c2).timing = true) ∧ (s.clock.ref = .external → s.clock.edge = true) := by
  unfold State.refTiming
  cases s.clock.ref <;> simp [State.port, PerPort.get]

theorem failover_eq (r : ClockRef) (c1 c2 : Bool) :
    failover r c1 c2 = if r = .c1 ∧ c2 = true then .c2 else if r = .c2 ∧ c1 = true then .c1 else .nothing := by
  cases r <;> simp [failover]

/-- Settles O32: the work puts one change in force, which is the failover of an unfit reference or the verdict's, lock state by
lock state and form by form. -/
theorem clockJudgesReference : Obligations.ClockJudgesReference := by
  unfold Obligations.ClockJudgesReference
  intro s ph k r partner c1 c2 unfit inside event lockSet howed hk hc1 hc2 hr hunfit hpartner hinside hlock hevent
  obtain rfl : s.clockRead = k := hk.symm
  obtain rfl : c1 = (s.port .c1).state.fit := Bool.eq_iff_iff.2 (hc1.trans (LinkState.fit_iff _).symm)
  obtain rfl : c2 = (s.port .c2).state.fit := Bool.eq_iff_iff.2 (hc2.trans (LinkState.fit_iff _).symm)
  obtain rfl : r = s.clockRead.ref := hr
  obtain rfl : inside = (ph.inside && s.refTiming) := by
    rw [Bool.eq_iff_iff, hinside, Bool.and_eq_true, s.refTiming_iff]
    rfl
  rw [← failover_eq] at hpartner
  have hunfit := hunfit.trans (ClockRef.unfit_iff _ _ _ _).symm
  subst hpartner hlock
  obtain ⟨t, hexec, hframe, hport, hclock, hex⟩ := exec_clockBoundary ph howed
  have hstays {k' : Clock} (hm : s.clockMove ph = k'.stay) : t.clock = k' ∧ t.ex = s.ex := by
    rw [hclock, hex, hm]
    exact ⟨rfl, s.putClock_stay_ex k' none⟩
  have hmoves {m : ClockMove} {l : LockState} {form : HoldForm} {ref : ClockRef} {cause : ClockCause}
      {inRun outRun acq : Nat} (hm : s.clockMove ph = m) (hc : m.cause = some cause)
      (hlost : m.lost = true ↔ cause = .lostLock ∨ (cause = .unfit ∧ s.clockRead.lock = .locked))
      (he : clockEvent m.counted m.after cause m.after.c1 m.after.c2 none =
        .clock s.clockRead.lock l s.clockRead.form form s.clockRead.ref ref s.clockRead.preferred cause inRun outRun acq
          s.clockRead.c1 s.clockRead.c2 s.clockRead.extFit none) :
      t.clock = m.after ∧ t.ex = event l form ref cause inRun outRun acq := by
    rw [hclock, hex, hm, s.putClock_ex m none hc, he, hevent]
    exact ⟨rfl, congrArg (Exchange.join · _) (if_congr hlost rfl rfl)⟩
  refine ⟨t, hexec, hframe, hport, fun hu => ?_, fun hu => ?_⟩
  · have hm : s.clockMove ph = s.clockRead.leaveUnfit _ _ := if_pos (hunfit.1 hu)
    obtain ⟨hk, he⟩ := hmoves hm rfl (by simp [Clock.leaveUnfit]) rfl
    rw [hk]
    exact ⟨rfl, he⟩
  have hjudge : s.clockMove ph = s.clockRead.judge _ _ (ph.inside && s.refTiming) ph.rate :=
    if_neg fun h => Bool.false_ne_true (hu.symm.trans (hunfit.2 h))
  refine ⟨fun hl hr => hstays (hjudge.trans (Clock.judge_internal _ _ _ _ hl hr)),
    fun hl ha => hstays (hjudge.trans (Clock.judge_unarmed _ _ _ _ hl ha)), fun hl hr ha => ?_, fun hl ha => ?_,
    fun hl hf => ?_, fun hl hf => hstays (hjudge.trans (Clock.judge_rest _ _ _ _ hl hf)), fun hl hf found hfound => ?_⟩
  · have hm := hjudge.trans (Clock.judge_locked _ _ _ _ hl hr ha)
    refine ⟨fun hi => hstays (hm.trans (Clock.keepLock_inside _ hi)),
      fun hi hn => hstays (hm.trans (Clock.keepLock_outside _ hi hn)),
      fun hi hn => hmoves (hm.trans (Clock.keepLock_lost _ hi hn)) rfl (by simp) rfl⟩
  · have hm := hjudge.trans (Clock.judge_acquiring _ _ _ _ hl ha)
    refine ⟨fun hi hn => hmoves (hm.trans (Clock.acquire_locked _ hi hn)) rfl (by simp) rfl,
      fun h => hstays (hm.trans (Clock.acquire_counts _ h))⟩
  · exact hmoves (hjudge.trans (Clock.judge_resume _ _ _ _ hl hf)) rfl (by simp [Clock.beginAcquiring])
      (by simp only [clockEvent, Clock.beginAcquiring, Clock.move, hf])
  · have hm := hjudge.trans (Clock.judge_wait _ _ _ _ hl hf hfound)
    refine ⟨fun hn => hstays (hm.trans (if_pos hn)), fun hn => ?_⟩
    exact hmoves (hm.trans (if_neg hn)) rfl (by simp [Clock.beginAcquiring])
      (by simp only [clockEvent, Clock.beginAcquiring, Clock.move, hf])

end Sys2Proof.Machine
end

section
/-! PROOFS. SET_CLOCK at its take: the choice of the reference, and what follows where it changes (R154, R155, R161, R162,
R180). -/

namespace Sys2Proof.Machine

/-! ### The exchange through a change of the clock -/

/-- Memory does not enter a change of the clock record. -/
theorem State.putClock_withMem (s : State) (m : ClockMove) (tag : Option Half) (mem : List Host.Cell) :
    (s.setEx { s.ex with mem := mem }).putClock m tag =
      (s.putClock m tag).setEx { (s.putClock m tag).ex with mem := mem } := by
  unfold State.putClock
  cases m.cause with
  | none => rfl
  | some cause =>
    exact congrArg (State.setEx { s with clock := m.after })
      (Exchange.join_withMem { s.ex with sticky := { s.ex.sticky with lock := s.ex.sticky.lock || m.lost } }
        ⟨s.frame, clockEvent m.counted m.after cause m.after.c1 m.after.c2 tag⟩ mem)

theorem State.clockSettled_withMem (s : State) (mem : List Host.Cell) :
    (s.setEx { s.ex with mem := mem }).clockSettled =
      s.clockSettled.setEx { s.clockSettled.ex with mem := mem } := by
  have htimeout : (s.setEx { s.ex with mem := mem }).acquisitionGivesUp =
      s.acquisitionGivesUp.setEx { s.acquisitionGivesUp.ex with mem := mem } := by
    unfold State.acquisitionGivesUp
    rw [State.setEx_clock]
    split
    · exact s.putClock_withMem _ _ _
    · rfl
  have hretry (t : State) : (t.setEx { t.ex with mem := mem }).clockRetries =
      t.clockRetries.setEx { t.clockRetries.ex with mem := mem } := by
    unfold State.clockRetries
    rw [State.setEx_clock]
    split
    · exact t.putClock_withMem _ _ _
    · rfl
  rw [State.clockSettled, htimeout, hretry]
  rfl

theorem State.selectClock_withMem (s : State) (src : ClockSource) (tag : Half) (mem : List Host.Cell) :
    (s.setEx { s.ex with mem := mem }).selectClock src tag =
      (s.selectClock src tag).setEx { (s.selectClock src tag).ex with mem := mem } := by
  unfold State.selectClock
  dsimp only
  rw [State.setEx_clock, State.setEx_ports]
  split
  · rfl
  · exact s.putClock_withMem _ _ _

/-- A change of the clock record leaves a ready exchange ready to complete a take. -/
theorem Exchange.TakeReady.putClock {x : Exchange} {s : State} (h : x.TakeReady s.ex) (m : ClockMove) (tag : Option Half) :
    x.TakeReady (s.putClock m tag).ex := by
  have hsticky (b : Bool) : x.TakeReady { s.ex with sticky := { s.ex.sticky with lock := b } } := h
  unfold State.putClock
  cases m.cause with
  | none => exact hsticky _
  | some cause => exact (hsticky _).joinAll s.frame [clockEvent m.counted m.after cause m.after.c1 m.after.c2 tag]

theorem Exchange.TakeReady.clockSettled {x : Exchange} {s : State} (h : x.TakeReady s.ex) : x.TakeReady s.clockSettled.ex := by
  have htimeout : x.TakeReady s.acquisitionGivesUp.ex := by
    unfold State.acquisitionGivesUp
    split
    · exact h.putClock _ _
    · exact h
  unfold State.clockSettled State.clockRetries
  split
  · exact htimeout.putClock _ _
  · exact htimeout

theorem Exchange.TakeReady.selectClock {x : Exchange} {s : State} (h : x.TakeReady s.ex) (src : ClockSource) (tag : Half) :
    x.TakeReady (s.selectClock src tag).ex := by
  unfold State.selectClock
  dsimp only
  split
  · exact h
  · exact h.putClock _ _

/-! ### The choice (R154, R161) -/

theorem decodeClockSource_none {b : Byte} (hb : 2 < b.toNat) : decodeClockSource b = none := by
  unfold decodeClockSource
  split
  case h_4 => rfl
  all_goals omega

/-- The source byte names the source whose reference is chosen, the three rows of R161. -/
theorem decodeClockSource_choice {b : Byte} {k : ClockSource} {ref : ClockRef} {c1 c2 ext : Bool}
    (h : (b = 0#8 ∧ k = .internal ∧ ref = .internal) ∨
      (b = 1#8 ∧ k = .portC ∧ ref = if c1 then .c1 else if c2 then .c2 else .nothing) ∨
      (b = 2#8 ∧ k = .external ∧ ref = if ext then .external else .nothing)) :
    decodeClockSource b = some k ∧ chooseRef k c1 c2 ext = ref := by
  rcases h with ⟨rfl, rfl, rfl⟩ | ⟨rfl, rfl, rfl⟩ | ⟨rfl, rfl, rfl⟩ <;> exact ⟨rfl, rfl⟩

/-- The lock state chosen for a reference, the four rows of R161. -/
theorem Clock.chosenLock_of {k : Clock} {ref : ClockRef} {lock : LockState}
    (h : (ref = .internal ∧ lock = .locked) ∨ (ref = .nothing ∧ lock = .holdover) ∨
      (ref ≠ .internal ∧ ref ≠ .nothing ∧ ref = k.ref ∧ k.lock = .locked ∧ lock = .locked) ∨
      (ref ≠ .internal ∧ ref ≠ .nothing ∧ ¬(ref = k.ref ∧ k.lock = .locked) ∧ lock = .acquiring)) :
    k.chosenLock ref = lock := by
  unfold Clock.chosenLock
  rcases h with ⟨rfl, rfl⟩ | ⟨rfl, rfl⟩ | ⟨hi, hn, hr, hk, rfl⟩ | ⟨hi, hn, hk, rfl⟩
  · rfl
  · rfl
  · rw [if_neg hi, if_neg hn, if_pos ⟨hr, hk⟩]
  · rw [if_neg hi, if_neg hn, if_neg hk]

/-- A held rate set on a condition. -/
theorem Clock.ite_heldRate (p : Prop) [Decidable p] (k : Clock) (rate : Nat) :
    (if p then { k with heldRate := rate } else k) = { k with heldRate := if p then rate else k.heldRate } := by
  split <;> rfl

section select
variable {s : State} {src : ClockSource} {ref : ClockRef} {lock : LockState} (tag : Half)
  (hr : chooseRef src (s.port .c1).state.fit (s.port .c2).state.fit s.clock.extFit = ref)
  (hl : s.clock.chosenLock ref = lock)
include hr hl

/-- A choice that is in force already stores the preferred source alone. -/
theorem State.selectClock_same (href : ref = s.clock.ref) (hlock : lock = s.clock.lock) :
    s.selectClock src tag = { s with clock := { s.clock with preferred := src } } := by
  subst hr hl
  exact if_pos ⟨href, hlock⟩

/-- Another choice is taken with its counts at 0, and is judged from the next boundary on (R155). -/
theorem State.selectClock_other (h : ¬(ref = s.clock.ref ∧ lock = s.clock.lock)) :
    s.selectClock src tag = s.putClock
      { counted := { s.clock with preferred := src }
        after := { s.clock with
          preferred := src, ref := ref, lock := lock, form := .wait, inRun := 0, outRun := 0, acq := 0, retry := 0
          armed := false, c1 := (s.port .c1).state, c2 := (s.port .c2).state
          heldRate := if ref = .internal then 48000000 else s.clock.heldRate }
        cause := some .select, lost := false } (some tag) := by
  subst hr hl
  exact (if_neg h).trans
    (congrArg (fun k => s.putClock ⟨{ s.clock with preferred := src }, k, some .select, false⟩ (some tag))
      (Clock.ite_heldRate _ _ _))

/-- What every choice stores, and what it leaves alone (R161). -/
theorem State.selectClock_fields {u : State} (hu : u = s.selectClock src tag) :
    u = { s with clock := u.clock, ex := u.ex } ∧ u.clock.preferred = src ∧ u.clock.ref = ref ∧ u.clock.lock = lock ∧
      u.clock.extFit = s.clock.extFit ∧ u.clock.edge = s.clock.edge := by
  by_cases h : ref = s.clock.ref ∧ lock = s.clock.lock
  · rw [State.selectClock_same tag hr hl h.1 h.2] at hu
    subst hu
    exact ⟨rfl, rfl, h.1.symm, h.2.symm, rfl, rfl⟩
  · rw [State.selectClock_other tag hr hl h] at hu
    subst hu
    simp only [State.putClock_clock, and_self, and_true]
    exact s.putClock_frame _ _

end select

/-! ### The take -/

section take
variable {s : State} {h : ReqHead} {src : Source} (hr : s.Ready h) (hs : decodeSource h.source = some src) {b : Byte}
include hr hs

/-- A source outside 0 to 2 (R161). -/
theorem served_setClock_badArg (hb : 2 < b.toNat) : Served (.setClock h b) s s h 16#8 .badArg none :=
  served_of_refusal hr (serve := fun s t => s.serveSetClock t b) (args := [b]) rfl (Nat.le_of_ble_eq_true rfl) fun u => by
    rw [State.serveSetClock, u.withSource_of_decoded 16#8 _ hs, decodeClockSource_none hb]

/-- SET_CLOCK acts on what the Clock Unit's boundary work leaves (R161). -/
theorem served_setClock {k : ClockSource} (hk : decodeClockSource b = some k) :
    Served (.setClock h b) s (s.clockSettled.selectClock k h.tag) h 16#8 .ok
      (some (clockReply s.clockSettled (s.clockSettled.selectClock k h.tag))) := by
  refine served_of_finish hr (serve := fun s t => s.serveSetClock t b) (args := [b]) rfl (Nat.le_of_ble_eq_true rfl)
    (by rintro bs ⟨⟩; exact Nat.le_of_ble_eq_true rfl) (hr.takeReady.clockSettled.selectClock k h.tag) ?_
  refine (State.withSource_of_decoded _ 16#8 _ hs).trans ?_
  rw [hk, Exchange.offer_frame, State.clockSettled_withMem]
  dsimp only
  rw [State.selectClock_withMem]
  rfl

end take

theorem Clock.timeoutDue_iff (k : Clock) : k.timeoutDue = true ↔ k.lock = .acquiring ∧ 500 ≤ k.acq := by
  rw [Clock.timeoutDue, Bool.and_eq_true, beq_iff_eq, decide_eq_true_eq]

theorem Clock.retryDue_iff (k : Clock) : k.retryDue = true ↔ k.lock = .holdover ∧ k.form = .rest ∧ k.retry = 0 := by
  rw [Clock.retryDue, Bool.and_eq_true, Bool.and_eq_true, beq_iff_eq, beq_iff_eq, beq_iff_eq, and_assoc]

theorem LinkState.fit_beq (l : LinkState) : (l == .up || l == .degraded) = l.fit := by cases l <;> rfl

/-- Settles O59: the take chooses on what the boundary work leaves, where the choice is in force already or is a change put in
force. -/
theorem setClockChoosesReference : Obligations.SetClockChoosesReference := by
  unfold Obligations.SetClockChoosesReference
  intro s h src b c1 c2 hr hs hc1 hc2
  refine ⟨served_setClock_badArg hr hs, s.acquisitionGivesUp, s.clockSettled, rfl, rfl, fun htimeout hretry =>
    State.clockSettled_of_calm (Bool.eq_false_iff.2 fun hd => htimeout (s.clock.timeoutDue_iff.1 hd))
      (Bool.eq_false_iff.2 fun hd => hretry (s.clock.retryDue_iff.1 hd)), ?_⟩
  intro k ref lock href hlock
  obtain ⟨hk, hchosen⟩ := decodeClockSource_choice href
  have hserved := served_setClock hr hs hk
  have hport (p : Port) : s.port p = s.clockSettled.port p := by rw [State.clockSettled_frame]; rfl
  rw [LinkState.fit_beq, hport] at hc1 hc2
  subst hc1 hc2
  generalize s.clockSettled = p at *
  have hlock : p.clock.chosenLock ref = lock := Clock.chosenLock_of hlock
  generalize hu : p.selectClock k h.tag = u at hserved
  obtain ⟨hframe, hpreferred, hnewRef, hnewLock, hfit, hedge⟩ := State.selectClock_fields h.tag hchosen hlock hu.symm
  refine ⟨u, ?_, hframe, hpreferred, hnewRef, hnewLock, hfit, hedge, fun hsameRef hsameLock => ?_, fun hother => ?_⟩
  · rw [clockReply, hpreferred, hnewRef, hnewLock, flagByte_flags, flagByte_flags, flagByte_flags] at hserved
    exact hserved
  · rw [← hu, State.selectClock_same h.tag hchosen hlock hsameRef hsameLock]
  · rw [← hu, State.selectClock_other h.tag hchosen hlock hother, State.putClock_clock, State.putClock_ex_of_cause _ rfl rfl]
    exact ⟨rfl, rfl, rfl, rfl, rfl, rfl, rfl, rfl⟩

end Sys2Proof.Machine
end

section
/-! PROOFS. The walk's bearings: the cursor, the record in hand and the memory, of which the law of R168 speaks. Which
operations leave them alone. -/

namespace Sys2Proof.Machine

/-! ### Operations of the Exchange Unit -/

/-- What the law of R168 speaks of: the cursor, the record in hand and the memory. -/
def Exchange.bearings (x : Exchange) : Nat × Option InHand × List Host.Cell := (x.cursor, x.inHand, x.mem)

theorem Exchange.bearings_iff {x y : Exchange} :
    y.bearings = x.bearings ↔ y.cursor = x.cursor ∧ y.inHand = x.inHand ∧ y.mem = x.mem := by
  simp only [Exchange.bearings, Prod.mk.injEq]

section exchange
variable (x : Exchange)

@[simp] theorem Exchange.join_bearings (q : QueuedEvent) : (x.join q).bearings = x.bearings := by
  rw [Exchange.join_frame]; rfl

@[simp] theorem Exchange.joinAll_bearings (stamp : Word) (es : List Event) :
    (x.joinAll stamp es).bearings = x.bearings := by
  rw [Exchange.joinAll_frame]; rfl

@[simp] theorem Exchange.trigger_bearings : x.trigger.bearings = x.bearings := by rw [Exchange.trigger_frame]; rfl

@[simp] theorem Exchange.pollExpires_bearings : x.pollExpires.bearings = x.bearings := by
  rw [Exchange.pollExpires_frame]; rfl

@[simp] theorem Exchange.stopWalk_bearings : x.stopWalk.bearings = x.bearings := by
  unfold Exchange.stopWalk; split <;> rfl

@[simp] theorem Exchange.deadEnd_bearings (n : Nat) : (x.deadEnd n).bearings = x.bearings := by
  unfold Exchange.deadEnd
  split
  · exact x.stopWalk_bearings
  · exact Exchange.stopWalk_bearings { x with sticky := { x.sticky with chain := true } }

@[simp] theorem Exchange.setEnable_bearings (on : Bool) : (x.setEnable on).bearings = x.bearings := by
  unfold Exchange.setEnable
  split
  · rfl
  · split
    · exact Exchange.trigger_bearings { x with enable := true, pollCountdown := x.pollInterval }
    · exact x.pollExpires_bearings

@[simp] theorem Exchange.setBlocks_bearings (code : BitVec 2) : (x.setBlocks code).bearings = x.bearings := by
  unfold Exchange.setBlocks; split <;> rfl

@[simp] theorem Exchange.giveBack_bearings (n : Nat) : (x.giveBack n).bearings = x.bearings := by
  unfold Exchange.giveBack; split <;> rfl

end exchange

/-! ### Operations on the state -/

/-- The bearings of the walk in the whole part. -/
def State.bearings (s : State) : Nat × Option InHand × List Host.Cell := s.ex.bearings

section shared
variable (s : State)

@[simp] theorem State.setChan_bearings (c : ChanId) (x : Chan) : (s.setChan c x).bearings = s.bearings := rfl

@[simp] theorem State.setBoard_bearings (b : BoardId) (x : Board) : (s.setBoard b x).bearings = s.bearings := rfl

@[simp] theorem State.raise_bearings (e : Event) : (s.raise e).bearings = s.bearings := s.ex.join_bearings _

@[simp] theorem State.raiseAll_bearings (es : List Event) : (s.raiseAll es).bearings = s.bearings :=
  s.ex.joinAll_bearings _ _

@[simp] theorem State.putChan_bearings (c : ChanId) (r : Chan × List Event) : (s.putChan c r).bearings = s.bearings :=
  s.ex.joinAll_bearings _ _

@[simp] theorem State.putClock_bearings (m : ClockMove) (tag : Option Half) : (s.putClock m tag).bearings = s.bearings := by
  unfold State.putClock
  split
  · rfl
  · exact State.raise_bearings _ _

end shared

/-! ### The line and the arbiter -/

section line
variable (s : State)

@[simp] theorem State.arbitrate_bearings (first : Option ReqId) : (s.arbitrate first).bearings = s.bearings := by
  have hstart (r : ReqId) : (s.startFor r).bearings = s.bearings := by unfold State.startFor; split <;> rfl
  unfold State.arbitrate
  split
  · rfl
  · split
    · rfl
    · exact hstart _

theorem State.txSucceeds_bearings (t : InFlight) : (s.txSucceeds t).bearings = s.bearings := by
  have hchans (u : State) (b : BoardId) (data : List Byte) : (u.readbackChans b data).bearings = u.bearings :=
    foldl_keeps (g := State.bearings) (fun _ _ => State.putChan_bearings _ _ _) _ _
  unfold State.txSucceeds
  split
  · exact State.putChan_bearings _ _ _
  · unfold State.readbackSucceeds
    dsimp only
    split
    · exact (State.raise_bearings _ _).trans (hchans _ _ _)
    · exact hchans _ _ _

theorem State.txFails_bearings (t : InFlight) (err : LineError) : (s.txFails t err).bearings = s.bearings := by
  have hlost (u : State) (hu : u.bearings = s.bearings) (p : Bool) :
      (if p then u.boardOffline t.board err else u).bearings = s.bearings := by
    split
    · rw [State.boardOffline, State.raise_bearings,
        foldl_keeps (g := State.bearings) fun _ _ => State.setChan_bearings _ _ _, hu]
    · exact hu
  have hstep (c : ChanId) : (s.stepFails c err).bearings = s.bearings := by
    rw [State.stepFails, State.raise_bearings, State.putChan_bearings, State.setBoard_bearings]
  unfold State.txFails
  cases t.kind with
  | step c sent => exact hlost _ (hstep c) _
  | readback => exact hlost _ (s.setBoard_bearings _ _) _

@[simp] theorem State.receiveChar_bearings (ch : LineChar) : (s.receiveChar ch).bearings = s.bearings := by
  have hend (t : InFlight) : (s.txComplete t).bearings = s.bearings := by
    unfold State.txComplete
    split
    · exact s.txSucceeds_bearings t
    · exact s.txFails_bearings t _
  unfold State.receiveChar
  split
  · rfl
  · dsimp only
    split
    · exact hend _
    · rfl

@[simp] theorem State.windowExpires_bearings : s.windowExpires.bearings = s.bearings := by
  unfold State.windowExpires
  split
  · rfl
  · split
    · exact s.txFails_bearings _ _
    · rfl

@[simp] theorem State.retryReadback_bearings (b : BoardId) : (s.retryReadback b).bearings = s.bearings := by
  unfold State.retryReadback; split <;> rfl

end line

/-! ### The steps of a channel, and the lanes -/

section steps
variable (s : State)

@[simp] theorem State.forceStep_bearings (c : ChanId) : (s.forceStep c).bearings = s.bearings := by
  unfold State.forceStep; split <;> rfl

@[simp] theorem State.applyPending_bearings (c : ChanId) : (s.applyPending c).bearings = s.bearings := by
  unfold State.applyPending
  split
  · exact s.putChan_bearings _ _
  · rfl

@[simp] theorem State.finishRamp_bearings (c : ChanId) : (s.finishRamp c).bearings = s.bearings := by
  unfold State.finishRamp
  split
  · exact s.putChan_bearings _ _
  · rfl

theorem State.chanDue_bearings (c : ChanId) : (s.chanDue c).bearings = s.bearings := by
  rw [State.chanDue, State.applyPending_bearings, State.finishRamp_bearings, State.forceStep_bearings]

@[simp] theorem State.judgeLane_bearings (g : LaneId) (f : LaneInput) : (s.judgeLane g f).bearings = s.bearings := by
  unfold State.judgeLane
  dsimp only
  split
  · rfl
  · exact State.raiseAll_bearings _ _

end steps

/-! ### Block boundaries -/

section boundary
variable (s : State)

theorem State.meterChan_bearings (c : ChanId) : (s.meterChan c).bearings = s.bearings := by
  rw [State.meterChan_eq, State.bearings, State.putMeter]
  exact s.ex.joinAll_bearings _ _

/-- No unit's boundary work touches the walk's bearings. -/
theorem State.unitWork_bearings (u : BoundaryUnit) (ph : PhaseInput) : (s.unitWork u ph).bearings = s.bearings := by
  cases u with
  | meterGuard => exact foldl_keeps (g := State.bearings) State.meterChan_bearings _ _
  | preampLine => rfl
  | sceneStore =>
    change s.sceneBoundary.bearings = s.bearings
    unfold State.sceneBoundary
    split
    · rfl
    · have hex : s.exchangeBanks.ex = s.ex := by rw [State.exchangeBanks_frame]
      rw [State.raiseAll_bearings, State.bearings, hex, State.bearings]
  | feedPorts => exact foldl_keeps (g := State.bearings) (fun t p => (t.setPort p _).raiseAll_bearings _) _ _
  | exchange => rfl
  | clock => exact s.putClock_bearings _ _

@[simp] theorem State.boundaryWork_bearings (us : List BoundaryUnit) (ph : PhaseInput) :
    (s.boundaryWork us ph).bearings = s.bearings :=
  State.boundaryWork_induct (P := fun t => t.bearings = s.bearings) (fun _ _ ht => ht)
    (fun t u _ _ ht => (t.unitWork_bearings u ph).trans ht) rfl

@[simp] theorem State.acquisitionGivesUp_bearings : s.acquisitionGivesUp.bearings = s.bearings := by
  unfold State.acquisitionGivesUp
  split
  · exact s.putClock_bearings _ _
  · rfl

@[simp] theorem State.clockRetries_bearings : s.clockRetries.bearings = s.bearings := by
  unfold State.clockRetries
  split
  · exact s.putClock_bearings _ _
  · rfl

@[simp] theorem State.clockSettled_bearings : s.clockSettled.bearings = s.bearings := by
  rw [State.clockSettled, State.clockRetries_bearings, State.acquisitionGivesUp_bearings]

/-- The boundary work that is left to SAMPLE_PERIOD, up to the close of a meter interval, leaves the bearings alone. -/
theorem State.boundaryMade_bearings : s.boundaryMade.bearings = s.bearings := by
  rw [State.boundaryMade, foldl_keeps (g := State.bearings) State.retryReadback_bearings, State.clockSettled_bearings,
    State.boundaryWork_bearings]

end boundary

/-! ### Changes of owner and of the reference -/

section changes
variable (s : State)

@[simp] theorem State.changeOwner_bearings (c : ChanId) (new : Option Feed) (cause : OwnCause) (tag : Half) :
    (s.changeOwner c new cause tag).bearings = s.bearings := by
  rw [State.changeOwner_eq]
  exact s.ex.joinAll_bearings _ _

theorem State.claimFree_bearings (c : ChanId) (f : Feed) (tag : Half) : (s.claimFree c f tag).bearings = s.bearings :=
  State.changeOwner_bearings _ _ _ _ _

theorem State.takeOver_bearings (c : ChanId) (e f : Feed) (tag : Half) : (s.takeOver c e f tag).bearings = s.bearings :=
  State.changeOwner_bearings _ _ _ _ _

theorem State.giveUp_bearings (c : ChanId) (f : Feed) (cause : OwnCause) (tag : Half) :
    (s.giveUp c f cause tag).bearings = s.bearings :=
  State.changeOwner_bearings _ _ _ _ _

theorem State.turnFeed_bearings (f : Feed) (off on : Bool) (tag : Half) :
    (s.turnFeed f off on tag).bearings = s.bearings := by
  rw [State.bearings, State.turnFeed_ex]
  exact s.ex.joinAll_bearings _ _

theorem State.selectClock_bearings (src : ClockSource) (tag : Half) : (s.selectClock src tag).bearings = s.bearings := by
  unfold State.selectClock
  dsimp only
  split
  · rfl
  · exact s.putClock_bearings _ _

end changes

end Sys2Proof.Machine
end

section
/-! PROOFS. How the take of a record of any kind can end: with its outcome written, or with the record in hand; and which
record each request command offers (R58, R171, R173). -/

namespace Sys2Proof.Machine

/-! ### The end of a take -/

/-- From x to z the take of a record ends: its outcome is written, or it is kept in hand, and what the owning block's action
moves before that leaves the walk's bearings alone (R171). -/
def Exchange.EndsTake (x : Exchange) (t : TakeHead) (z : Exchange) : Prop :=
  ∃ y : Exchange, y.bearings = x.bearings ∧
    ((∃ r reply, (∀ bs, reply = some bs → bs.length ≤ 32) ∧ z = y.finish t r reply) ∨
      ∃ k : InHand, k.head = t ∧ z = { y with inHand := some k })

section ends
variable {s u : State} (t : TakeHead) (r : Result)

theorem endsTake_refuse : s.ex.EndsTake t (s.finish t r none).ex := ⟨s.ex, rfl, .inl ⟨r, none, nofun, rfl⟩⟩

theorem endsTake_answer {bs : List Byte} (hu : u.bearings = s.bearings) (hl : bs.length ≤ 32) :
    s.ex.EndsTake t (u.finish t r (some bs)).ex :=
  ⟨u.ex, hu, .inl ⟨r, some bs, fun _ h => Option.some.inj h ▸ hl, rfl⟩⟩

theorem endsTake_hold (reply : XpReply) (hu : u.bearings = s.bearings) : s.ex.EndsTake t (u.hold t r reply).ex :=
  ⟨u.ex, hu, .inr ⟨_, rfl, rfl⟩⟩

theorem endsTake_holdOrFinish (changes : Bool) (reply : XpReply) (hu : u.bearings = s.bearings) :
    s.ex.EndsTake t (u.holdOrFinish t changes r reply).ex := by
  unfold State.holdOrFinish
  split
  · exact endsTake_hold t r reply hu
  · exact endsTake_answer t r hu (Nat.le_of_ble_eq_true rfl)

end ends

/-! ### The common checks -/

section checks
variable {s : State} (t : TakeHead)

theorem State.withChan_endsTake {k : ChanId → Source → State} (hk : ∀ c src, s.ex.EndsTake t (k c src).ex) :
    s.ex.EndsTake t (s.withChan t k).ex := by
  unfold State.withChan
  split
  · exact endsTake_refuse t _
  · exact endsTake_refuse t _
  · exact hk _ _

theorem State.withXp_endsTake {k : ChanId → Feed → State} (hk : ∀ c f, s.ex.EndsTake t (k c f).ex) :
    s.ex.EndsTake t (s.withXp t k).ex := by
  unfold State.withXp
  split
  · exact endsTake_refuse t _
  · exact endsTake_refuse t _
  · exact endsTake_refuse t _
  · split
    · exact hk _ _
    · exact endsTake_refuse t _

theorem State.withFeed_endsTake {k : Feed → State} (hk : ∀ f, s.ex.EndsTake t (k f).ex) :
    s.ex.EndsTake t (s.withFeed t k).ex := by
  unfold State.withFeed
  split
  · exact endsTake_refuse t _
  · exact endsTake_refuse t _
  · split
    · exact hk _
    · exact endsTake_refuse t _

theorem State.withSource_endsTake {k : State} (hk : s.ex.EndsTake t k.ex) : s.ex.EndsTake t (s.withSource t k).ex := by
  unfold State.withSource
  split
  · exact endsTake_refuse t _
  · exact hk

end checks

/-! ### Each kind -/

section kinds
variable (s : State) (t : TakeHead)

theorem State.preampReply_length (c : ChanId) : (s.preampReply c).length ≤ 32 := Nat.le_of_ble_eq_true rfl

theorem State.xpReply_length (r : XpReply) : (s.xpReply r).length ≤ 32 := Nat.le_of_ble_eq_true rfl

theorem State.guardReply_length (c : ChanId) (served : Bool) : (s.guardReply c served).length ≤ 32 := by
  cases served <;> exact Nat.le_of_ble_eq_true rfl

theorem shadowReply_length (loaded clamped pending : ChanMask) (invalid : Option ChanId) :
    (shadowReply loaded clamped pending invalid).length ≤ 32 := Nat.le_of_ble_eq_true rfl

theorem State.serveSetAnalog_endsTake (code : Half) : s.ex.EndsTake t (s.serveSetAnalog t code).ex := by
  refine State.withChan_endsTake t fun c src => ?_
  dsimp only
  split
  · exact endsTake_answer t _ (s.putChan_bearings _ _) (State.preampReply_length _ _)
  · split
    · exact endsTake_answer t _ rfl (State.preampReply_length _ _)
    · exact endsTake_holdOrFinish t _ _ _ rfl

theorem State.serveSetPad_endsTake (v : Byte) : s.ex.EndsTake t (s.serveSetPad t v).ex := by
  refine State.withChan_endsTake t fun c src => ?_
  dsimp only
  split
  · exact endsTake_answer t _ rfl (State.preampReply_length _ _)
  · split
    · exact endsTake_answer t _ (s.putChan_bearings _ _) (State.preampReply_length _ _)
    · exact endsTake_answer t _ rfl (State.preampReply_length _ _)

theorem State.serveSetPhantom_endsTake (v : Byte) : s.ex.EndsTake t (s.serveSetPhantom t v).ex := by
  refine State.withChan_endsTake t fun c src => ?_
  have hanswer {u : State} (r : Result) (hu : u.bearings = s.bearings) :
      s.ex.EndsTake t (u.finish t r (some (u.preampReply c))).ex := endsTake_answer t r hu (u.preampReply_length c)
  dsimp only
  split
  · exact hanswer _ rfl
  · split
    · exact hanswer _ rfl
    · split
      · exact hanswer _ rfl
      · exact hanswer _ (s.setChan_bearings _ _)

theorem State.serveReadChannel_endsTake : s.ex.EndsTake t (s.serveReadChannel t).ex :=
  State.withChan_endsTake t fun c _ => endsTake_answer t _ rfl (s.channelReply_length c).le

theorem State.serveResync_endsTake : s.ex.EndsTake t (s.serveResync t).ex :=
  State.withChan_endsTake t fun c _ =>
    endsTake_answer t _ (s.retryReadback_bearings (boardOf c)) (Nat.le_of_ble_eq_true rfl)

theorem State.serveSetGuard_endsTake (enable : Byte) (threshold hold floor rest : Half) :
    s.ex.EndsTake t (s.serveSetGuard t enable threshold hold floor rest).ex := by
  refine State.withChan_endsTake t fun c src => ?_
  dsimp only
  split
  · exact endsTake_answer t _ rfl (State.guardReply_length _ _ _)
  · split
    · exact endsTake_answer t _ rfl (State.guardReply_length _ _ _)
    · exact endsTake_answer t _ rfl (State.guardReply_length _ _ _)

theorem State.serveSetTrim_endsTake (trim : Half) : s.ex.EndsTake t (s.serveSetTrim t trim).ex :=
  State.withXp_endsTake t fun _ _ => endsTake_holdOrFinish t _ _ _ rfl

theorem State.serveSetMode_endsTake (v : Byte) : s.ex.EndsTake t (s.serveSetMode t v).ex := by
  refine State.withXp_endsTake t fun c f => ?_
  have hanswer (r : Result) (reply : XpReply) : s.ex.EndsTake t (s.finish t r (some (s.xpReply reply))).ex :=
    endsTake_answer t r rfl (s.xpReply_length reply)
  dsimp only
  split
  · exact endsTake_refuse t _
  · split
    · exact hanswer _ _
    · split
      · exact endsTake_hold t _ _ rfl
      · exact hanswer _ _
    · split
      · exact hanswer _ _
      · exact endsTake_hold t _ _ rfl

theorem State.serveSetFlags_endsTake (mute invert : Byte) : s.ex.EndsTake t (s.serveSetFlags t mute invert).ex := by
  refine State.withXp_endsTake t fun c f => ?_
  dsimp only
  split
  · exact endsTake_refuse t _
  · exact endsTake_holdOrFinish t _ _ _ rfl

theorem State.serveClaim_endsTake : s.ex.EndsTake t (s.serveClaim t).ex := by
  refine State.withXp_endsTake t fun c f => ?_
  have hanswer (r : Result) (reply : XpReply) : s.ex.EndsTake t (s.finish t r (some (s.xpReply reply))).ex :=
    endsTake_answer t r rfl (s.xpReply_length reply)
  dsimp only
  split
  · exact hanswer _ _
  · split
    · exact endsTake_hold t _ _ (s.claimFree_bearings _ _ _)
    · split
      · exact hanswer _ _
      · split
        · exact endsTake_hold t _ _ (s.takeOver_bearings _ _ _ _)
        · exact hanswer _ _

theorem State.serveRelease_endsTake : s.ex.EndsTake t (s.serveRelease t).ex := by
  refine State.withXp_endsTake t fun c f => ?_
  dsimp only
  split
  · exact endsTake_hold t _ _ (s.giveUp_bearings _ _ _ _)
  · exact endsTake_answer t _ rfl (State.xpReply_length _ _)

theorem State.serveSetFeed_endsTake (enable senior : Byte) : s.ex.EndsTake t (s.serveSetFeed t enable senior).ex := by
  refine State.withFeed_endsTake t fun f => ?_
  dsimp only
  split
  · exact endsTake_refuse t _
  · exact endsTake_answer t _ (State.turnFeed_bearings { s with senior := _ } f _ _ t.tag) (Nat.le_of_ble_eq_true rfl)

theorem State.serveLoadSlotmap_endsTake (map : Word) : s.ex.EndsTake t (s.serveLoadSlotmap t map).ex := by
  refine State.withFeed_endsTake t fun f => ?_
  dsimp only
  split
  · exact endsTake_refuse t _
  · split
    · exact endsTake_refuse t _
    · exact endsTake_answer t _ rfl (Nat.le_of_ble_eq_true rfl)

theorem State.serveLoadShadow_endsTake (table : Word) (first count : Byte) :
    s.ex.EndsTake t (s.serveLoadShadow t table first count).ex := by
  refine State.withSource_endsTake t ?_
  dsimp only
  split
  · exact endsTake_refuse t _
  · split
    · exact endsTake_answer t _ rfl (shadowReply_length _ _ _ _)
    · split
      · exact endsTake_answer t _ rfl (shadowReply_length _ _ _ _)
      · split
        · exact endsTake_answer t _ rfl (shadowReply_length _ _ _ _)
        · exact endsTake_answer t _ (by simp only [State.bearings]) (shadowReply_length _ _ _ _)

theorem State.serveSwap_endsTake (mask : ChanMask) : s.ex.EndsTake t (s.serveSwap t mask).ex := by
  refine State.withSource_endsTake t ?_
  split
  · exact endsTake_refuse t _
  · split
    · exact endsTake_answer t _ rfl (Nat.le_of_ble_eq_true rfl)
    · exact endsTake_answer t _ rfl (Nat.le_of_ble_eq_true rfl)

theorem State.serveSetClock_endsTake (source : Byte) : s.ex.EndsTake t (s.serveSetClock t source).ex := by
  refine State.withSource_endsTake t ?_
  split
  · exact endsTake_refuse t _
  · exact endsTake_answer t _ ((State.selectClock_bearings _ _ _).trans s.clockSettled_bearings) (Nat.le_of_ble_eq_true rfl)

/-- Where a take of a record may end: a SET_EXCHANGE acts on what the boundary's work has brought to its end (R178), every
other kind on the exchange as it stands. -/
def State.Takes (s : State) (t : TakeHead) (u : State) : Prop :=
  s.ex.EndsTake t u.ex ∨ t.kind = 17#8 ∧ s.exchangeSettled.ex.EndsTake t u.ex

theorem State.serveSetExchange_takes (ht : t.kind = 17#8) (select : Byte) (threshold poll meter : Half) (unitId : Byte) :
    s.Takes t (s.serveSetExchange t select threshold poll meter unitId) := by
  unfold State.serveSetExchange State.withSource
  split
  · exact .inl (endsTake_refuse t _)
  · split
    · exact .inl (endsTake_refuse t _)
    · exact .inr ⟨ht, endsTake_answer (s := s.exchangeSettled) t _ rfl (Nat.le_of_ble_eq_true rfl)⟩

/-- The take of a record of any kind, its arguments read from the memory. -/
theorem State.serveKind_takes : s.Takes t (s.serveKind t) := by
  unfold State.serveKind
  dsimp only
  split
  · exact .inl (s.serveSetAnalog_endsTake t _)
  · exact .inl (s.serveSetPad_endsTake t _)
  · exact .inl (s.serveSetPhantom_endsTake t _)
  · exact .inl (s.serveReadChannel_endsTake t)
  · exact .inl (s.serveResync_endsTake t)
  · exact .inl (s.serveSetGuard_endsTake t _ _ _ _ _)
  · exact .inl (s.serveSetTrim_endsTake t _)
  · exact .inl (s.serveSetMode_endsTake t _)
  · exact .inl (s.serveSetFlags_endsTake t _ _)
  · exact .inl (s.serveClaim_endsTake t)
  · exact .inl (s.serveRelease_endsTake t)
  · exact .inl (s.serveSetFeed_endsTake t _ _)
  · exact .inl (s.serveLoadSlotmap_endsTake t _)
  · exact .inl (s.serveLoadShadow_endsTake t _ _ _)
  · exact .inl (s.serveSwap_endsTake t _)
  · exact .inl (s.serveSetClock_endsTake t _)
  · next h17 => exact s.serveSetExchange_takes t (BitVec.eq_of_toNat_eq h17) _ _ _ _ _
  · exact .inl (endsTake_refuse t _)

theorem State.serveBadKind_takes : s.Takes t (if kindKnown t.kind then s.serveKind t else s.finish t .badKind none) := by
  split
  · exact s.serveKind_takes t
  · exact .inl (endsTake_refuse t _)

end kinds

/-! ### The record of a request command -/

/-- The record that a request command offers: its head, its kind and its arguments (R173, R180). -/
def recordOf : Instr → Option (ReqHead × Byte × List Byte)
  | .badKind h k => some (h, k, [])
  | .setAnalog h code => some (h, 1#8, halfBytes code)
  | .setPad h v => some (h, 2#8, [v])
  | .setPhantom h v => some (h, 3#8, [v])
  | .readChannel h => some (h, 4#8, [])
  | .resync h => some (h, 5#8, [])
  | .setGuard h enable threshold hold floor rest =>
    some (h, 6#8, [enable, 0#8] ++ halfBytes threshold ++ halfBytes hold ++ halfBytes floor ++ halfBytes rest)
  | .setTrim h trim => some (h, 7#8, halfBytes trim)
  | .setMode h v => some (h, 8#8, [v])
  | .setFlags h mute invert => some (h, 9#8, [mute, invert])
  | .claim h => some (h, 10#8, [])
  | .release h => some (h, 11#8, [])
  | .setFeed h enable senior => some (h, 12#8, [enable, senior])
  | .loadSlotmap h map => some (h, 13#8, wordBytes map)
  | .loadShadow h table first count => some (h, 14#8, wordBytes table ++ [first, count])
  | .swap h mask => some (h, 15#8, maskBytes mask)
  | .setClock h source => some (h, 16#8, [source])
  | .setExchange h select threshold poll meter unitId =>
    some (h, 17#8, [select, 0#8] ++ halfBytes threshold ++ halfBytes poll ++ halfBytes meter ++ [unitId])
  | .powerOnReset | .samplePeriod | .laneFrame _ _ | .arbiterDecision _ | .answerCharacter _ => none
  | .answerWindowExpiry | .forcedStep _ | .pendingApplication _ | .rampEnd _ | .blockBoundary _ _ => none
  | .acquisitionTimeout | .clockRetry | .readbackRetry _ | .pollCountdownExpiry | .meterClose | .swapApply => none
  | .returnWord _ _ | .wordClockEdge | .chainWalk _ | .replyWrite | .poke _ | .releaseWrite _ | .noticeWrite _ => none
  | .noticeMaskWrite _ | .blocks _ | .enable _ | .clear _ | .exchangeClear | .registerWriteIgnored _ _ => none
  | .reportWrite => none

/-- A request command offers its record, and a walk that stands there takes it as its kind is taken. -/
theorem exec_record {i : Instr} {h : ReqHead} {kind : Byte} {args : List Byte} (hi : recordOf i = some (h, kind, args))
    (s : State) : args.length ≤ 16 ∧ ∃ serve, exec i s = s.request h kind args serve ∧
      ∀ u : State, u.Takes (takeHead h kind) (serve u (takeHead h kind)) := by
  cases i <;> cases hi <;> refine ⟨Nat.le_of_ble_eq_true rfl, ?_⟩
  case badKind =>
    exact ⟨fun u t => if kindKnown kind then u.serveKind t else u.finish t .badKind none, rfl,
      fun u => u.serveBadKind_takes (takeHead h kind)⟩
  case setAnalog code =>
    exact ⟨fun u t => u.serveSetAnalog t code, rfl,
      fun u => .inl (u.serveSetAnalog_endsTake _ code)⟩
  case setPad v => exact ⟨fun u t => u.serveSetPad t v, rfl, fun u => .inl (u.serveSetPad_endsTake _ v)⟩
  case setPhantom v => exact ⟨fun u t => u.serveSetPhantom t v, rfl, fun u => .inl (u.serveSetPhantom_endsTake _ v)⟩
  case readChannel => exact ⟨fun u t => u.serveReadChannel t, rfl, fun u => .inl (u.serveReadChannel_endsTake _)⟩
  case resync => exact ⟨fun u t => u.serveResync t, rfl, fun u => .inl (u.serveResync_endsTake _)⟩
  case setGuard enable threshold hold floor rest =>
    exact ⟨fun u t => u.serveSetGuard t enable threshold hold floor rest, rfl,
      fun u => .inl (u.serveSetGuard_endsTake _ enable threshold hold floor rest)⟩
  case setTrim trim => exact ⟨fun u t => u.serveSetTrim t trim, rfl, fun u => .inl (u.serveSetTrim_endsTake _ trim)⟩
  case setMode v => exact ⟨fun u t => u.serveSetMode t v, rfl, fun u => .inl (u.serveSetMode_endsTake _ v)⟩
  case setFlags mute invert =>
    exact ⟨fun u t => u.serveSetFlags t mute invert, rfl,
      fun u => .inl (u.serveSetFlags_endsTake _ mute invert)⟩
  case claim => exact ⟨fun u t => u.serveClaim t, rfl, fun u => .inl (u.serveClaim_endsTake _)⟩
  case release => exact ⟨fun u t => u.serveRelease t, rfl, fun u => .inl (u.serveRelease_endsTake _)⟩
  case setFeed enable senior =>
    exact ⟨fun u t => u.serveSetFeed t enable senior, rfl,
      fun u => .inl (u.serveSetFeed_endsTake _ enable senior)⟩
  case loadSlotmap map =>
    exact ⟨fun u t => u.serveLoadSlotmap t map, rfl,
      fun u => .inl (u.serveLoadSlotmap_endsTake _ map)⟩
  case loadShadow table first count =>
    exact ⟨fun u t => u.serveLoadShadow t table first count, rfl,
      fun u => .inl (u.serveLoadShadow_endsTake _ table first count)⟩
  case swap mask => exact ⟨fun u t => u.serveSwap t mask, rfl, fun u => .inl (u.serveSwap_endsTake _ mask)⟩
  case setClock source =>
    exact ⟨fun u t => u.serveSetClock t source, rfl,
      fun u => .inl (u.serveSetClock_endsTake _ source)⟩
  case setExchange select threshold poll meter unitId =>
    exact ⟨fun u t => u.serveSetExchange t select threshold poll meter unitId, rfl,
      fun u => u.serveSetExchange_takes _ rfl select threshold poll meter unitId⟩

end Sys2Proof.Machine
end

section
/-! PROOFS. The law of R168 under every command: the cursor and the record in hand stand at records of the request window, and
the memory keeps its canonical form (R164, R168, R170, R171, R179). -/

namespace Sys2Proof.Machine

/-! ### What a take and a snapshot leave of the bearings -/

/-- A take that completes leaves the cursor at its record, or at the anchor where a clear waited, and no record in hand (R170,
R179). -/
theorem Exchange.finish_bearings (x : Exchange) (t : TakeHead) (r : Result) (reply : Option (List Byte)) :
    (x.finish t r reply).bearings =
      (if x.clearAsked then Config.anchor else t.off, none, (x.writeOutcome t r reply).mem) := by
  unfold Exchange.finish Exchange.complete
  dsimp only
  cases hen : (x.writeOutcome t r reply).enable <;> cases hclear : x.clearAsked <;>
    simp [Exchange.writeOutcome] at hen ⊢ <;> simp [hclear, Exchange.cleared, Exchange.bearings]

/-- A snapshot that is handed over is written into the report area, or leaves the memory alone: nothing else of it depends on
the memory (R164, R190). -/
theorem Exchange.takeSnapshot_withMem (x : Exchange) (sn : Snapshot) : ∃ a bs, Config.windowEnd ≤ a ∧ ∀ m,
    ({ x with mem := m } : Exchange).takeSnapshot sn = { x.takeSnapshot sn with mem := writeBytes m a bs } := by
  rcases Option.eq_none_or_eq_some x.held with hheld | ⟨old, hheld⟩
  rotate_left
  · refine ⟨Config.windowEnd, [], le_rfl, fun m => ?_⟩
    rw [Exchange.takeSnapshot_merges sn hheld]
    exact Exchange.takeSnapshot_merges (x := { x with mem := m }) sn hheld
  · by_cases hfree : x.lost = 0 ∧ x.queue = [] ∧ x.enable = true ∧ x.filled < x.count
    · obtain ⟨hlost, hqueue, hon, hroom⟩ := hfree
      refine ⟨blockOffset x.nextBlock, reportBytes 15#8 x.unitId sn.stamp sn.body, Nat.le_add_right _ _, fun m => ?_⟩
      rw [Exchange.takeSnapshot_writes sn hheld hlost hqueue hon hroom]
      exact Exchange.takeSnapshot_writes (x := { x with mem := m }) sn hheld hlost hqueue hon hroom
    · refine ⟨Config.windowEnd, [], le_rfl, fun m => ?_⟩
      rw [Exchange.takeSnapshot_holds sn hheld hfree]
      exact Exchange.takeSnapshot_holds (x := { x with mem := m }) sn hheld hfree

theorem State.closeInterval_of_due {s : State} (h : s.closeDue = true) : s.closeInterval = { s with
    intervals := tab fun _ => resetInterval
    xps := tab fun c => PerFeed.of fun f => { s.xp c f with satSeen := false }
    ex := { s.ex with meterCountdown := s.ex.meterInterval }.takeSnapshot s.snapshot } := if_pos h

/-- What the Exchange Unit's boundary work brings to its end writes no memory but a report, and that only where the meter
countdown has run out; nothing else of it depends on the memory (R164, R178). -/
theorem State.exchangeSettled_withMem (s : State) : ∃ a bs, Config.windowEnd ≤ a ∧ (s.ex.meterCountdown ≠ 0 → bs = []) ∧
    ∀ m, (s.setEx { s.ex with mem := m }).exchangeSettled =
      s.exchangeSettled.setEx { s.exchangeSettled.ex with mem := writeBytes m a bs } := by
  have hpoll (x : Exchange) (m : List Host.Cell) :
      ({ x with mem := m } : Exchange).pollExpires = { x.pollExpires with mem := m } := by
    simp only [Exchange.pollExpires, Exchange.pollDue, Exchange.trigger]
    split
    · split <;> rfl
    · rfl
  obtain ⟨a, bs, ha, htake⟩ :=
    Exchange.takeSnapshot_withMem { s.ex with meterCountdown := s.ex.meterInterval } s.snapshot
  by_cases hdue : s.closeDue = true
  · refine ⟨a, bs, ha, fun h => absurd (beq_iff_eq.1 hdue) h, fun m => ?_⟩
    have hclose : (s.setEx { s.ex with mem := m }).closeInterval =
        s.closeInterval.setEx { s.closeInterval.ex with mem := writeBytes m a bs } := by
      rw [State.closeInterval_of_due hdue, State.closeInterval_of_due (s := s.setEx { s.ex with mem := m }) hdue]
      exact congrArg (State.setEx { s with
        intervals := tab fun _ => resetInterval
        xps := tab fun c => PerFeed.of fun f => { s.xp c f with satSeen := false } }) (htake m)
    rw [State.exchangeSettled, State.exchangeSettled, hclose, State.setEx_ex, hpoll]
    rfl
  · refine ⟨Config.windowEnd, [], le_rfl, fun _ => rfl, fun m => ?_⟩
    have hstill (u : State) (hu : ¬u.closeDue = true) : u.closeInterval = u := if_neg hu
    rw [State.exchangeSettled, State.exchangeSettled, hstill s hdue, hstill (s.setEx { s.ex with mem := m }) hdue,
      State.setEx_ex, hpoll]
    rfl

/-- What a snapshot can change. -/
theorem Exchange.takeSnapshot_frame (x : Exchange) (m : Snapshot) : x.takeSnapshot m = { x with
    filled := (x.takeSnapshot m).filled, held := (x.takeSnapshot m).held, mem := (x.takeSnapshot m).mem } := by
  unfold Exchange.takeSnapshot
  split
  · rfl
  · split <;> rfl

/-- The boundary work brought to its end moves neither the cursor, nor ENABLE, nor the clear that waits. -/
theorem State.exchangeSettled_walk (s : State) : s.exchangeSettled.ex.cursor = s.ex.cursor ∧
    s.exchangeSettled.ex.enable = s.ex.enable ∧ s.exchangeSettled.ex.clearAsked = s.ex.clearAsked := by
  rw [State.exchangeSettled, State.setEx_ex, Exchange.pollExpires_frame]
  unfold State.closeInterval
  split
  · dsimp only
    rw [Exchange.takeSnapshot_frame]
    exact ⟨rfl, rfl, rfl⟩
  · exact ⟨rfl, rfl, rfl⟩

/-- The boundary work brought to its end keeps the cursor and the record in hand, and writes no memory but in the report
area. -/
theorem State.exchangeSettled_bearings (s : State) : ∃ a bs, Config.windowEnd ≤ a ∧ (s.ex.meterCountdown ≠ 0 → bs = []) ∧
    s.exchangeSettled.bearings = (s.ex.cursor, s.ex.inHand, writeBytes s.ex.mem a bs) := by
  obtain ⟨a, bs, ha, hbs, hmem⟩ := s.exchangeSettled_withMem
  obtain ⟨hcursor, -, -⟩ := s.exchangeSettled_walk
  have hself : s.exchangeSettled.ex.mem = writeBytes s.ex.mem a bs :=
    congrArg (fun u : State => u.ex.mem) (hmem s.ex.mem)
  refine ⟨a, bs, ha, hbs, ?_⟩
  rw [State.bearings, Exchange.bearings, hcursor, s.exchangeSettled_inHand, hself]

/-! ### The law under the Exchange Unit's operations -/

namespace Exchange.WalkLaw
variable {x y : Exchange}

/-- The law speaks of the bearings alone. -/
theorem of_bearings (h : x.WalkLaw) (e : y.bearings = x.bearings) : y.WalkLaw := by
  obtain ⟨hcursor, hhand, hmem⟩ := Exchange.bearings_iff.1 e
  unfold Exchange.WalkLaw
  rw [hcursor, hhand, hmem]
  exact h

/-- Bytes that the part writes at a place above the status area. -/
theorem writeBytes (a : Nat) (bs : List Byte) (ha : Config.anchor ≤ a) (h : x.WalkLaw)
    (e : y.bearings = (x.cursor, x.inHand, Machine.writeBytes x.mem a bs)) : y.WalkLaw := by
  obtain ⟨hcursor, hhand, hwf, habove⟩ := h
  exact of_bearings (x := { x with mem := Machine.writeBytes x.mem a bs })
    ⟨hcursor, hhand, writeBytes_wf _ _ hwf, writeBytes_anchor _ ha habove⟩ e

theorem withLosses (n : Nat) (a b : Option Word) (h : x.WalkLaw) :
    ({ x with lost := n, firstLost := a, lastLost := b } : Exchange).WalkLaw := h

theorem writeNext (h : x.WalkLaw) : x.writeNext.WalkLaw := by
  have hstore (kind : Byte) (stamp : Word) (body : List Byte) : (x.store kind stamp body).WalkLaw :=
    writeBytes (blockOffset x.nextBlock) (reportBytes kind x.unitId stamp body)
      (by simp only [blockOffset, Config.anchor, Config.windowEnd]; omega) h rfl
  unfold Exchange.writeNext
  split
  · split
    · exact (hstore _ _ _).withLosses 0 none none
    · split
      · next q rest _ => exact (hstore q.event.kind q.stamp q.event.body).of_bearings rfl
      · split
        · next m _ => exact (hstore 15#8 m.stamp m.body).of_bearings rfl
        · exact h
  · exact h

/-- With no record in hand the law is that of the cursor and the memory. -/
theorem of_empty {cursor : Nat} {m : List Host.Cell} (e : x.bearings = (cursor, none, m))
    (hcursor : cursor = Config.anchor ∨ goodOffset cursor = true) (hwf : Memory.wf m)
    (habove : ∀ cell ∈ m, Config.anchor ≤ cell.1) : x.WalkLaw := by
  simp only [Exchange.bearings, Prod.mk.injEq] at e
  obtain ⟨rfl, hhand, rfl⟩ := e
  refine ⟨hcursor, fun k hk => ?_, hwf, habove⟩
  rw [hhand] at hk
  cases hk

theorem cleared (h : x.WalkLaw) : x.cleared.WalkLaw := by
  obtain ⟨-, -, hwf, habove⟩ := h
  exact of_empty (cursor := Config.anchor) (m := x.mem) rfl (.inl rfl) hwf habove

theorem askClear (h : x.WalkLaw) : x.askClear.WalkLaw := by
  unfold Exchange.askClear
  split
  · exact h
  · exact h.cleared

theorem writeReg (r : Reg) (v : Word) (h : x.WalkLaw) : (x.writeReg r v).WalkLaw := by
  cases r with
  | ident => exact h
  | control =>
    have hset : ((x.setBlocks (v.extractLsb' 2 2)).setEnable (v.getLsbD 0)).WalkLaw :=
      h.of_bearings (by rw [Exchange.setEnable_bearings, Exchange.setBlocks_bearings])
    simp only [Exchange.writeReg]
    split
    · exact hset.askClear
    · exact hset
  | poke =>
    simp only [Exchange.writeReg]
    split
    · exact h.of_bearings x.trigger_bearings
    · exact h
  | release => exact h.of_bearings (x.giveBack_bearings _)
  | notice => exact h
  | noticeMask => exact h

/-- The controller's writes reach nothing below the anchor (R164). -/
theorem controllerCells (ws : List Host.Cell) (h : x.WalkLaw) :
    ({ x with mem := Machine.controllerCells x.mem ws } : Exchange).WalkLaw := by
  obtain ⟨hcursor, hhand, hwf, habove⟩ := h
  exact ⟨hcursor, hhand, controllerCells_wf ws hwf, controllerCells_anchor ws habove⟩

theorem offer (r : ReqHead) (kind : Byte) (args : List Byte) (h : x.WalkLaw) : (x.offer r kind args).WalkLaw := by
  obtain ⟨hcursor, hhand, hwf, habove⟩ := h
  refine ⟨hcursor, hhand, x.offer_wf r kind args hwf, ?_⟩
  unfold Exchange.offer
  refine controllerWrites_anchor _ _ ?_
  split
  · exact controllerWrites_anchor _ _ habove
  · exact habove

/-- An outcome written at a record of the window completes its take there, or at the anchor (R170, R179). -/
theorem finish (t : TakeHead) (r : Result) (reply : Option (List Byte)) (ht : goodOffset t.off = true) (h : x.WalkLaw) :
    (x.finish t r reply).WalkLaw := by
  obtain ⟨-, hlow, -⟩ := (goodOffset_iff _).1 ht
  have hanchor : Config.anchor ≤ t.off := hlow.trans' (by decide)
  have hout : (x.writeOutcome t r reply).WalkLaw := by
    cases reply with
    | none => exact writeBytes t.off _ hanchor h rfl
    | some bs =>
      have hreply := writeBytes (y := { x with mem := Machine.writeBytes x.mem (t.off + 0x20) (padTo 32 bs) }) (t.off + 0x20)
        (padTo 32 bs) (hanchor.trans (Nat.le_add_right _ _)) h rfl
      exact writeBytes t.off _ hanchor hreply rfl
  obtain ⟨-, -, hwf, habove⟩ := hout
  refine of_empty (x.finish_bearings t r reply) ?_ hwf habove
  split
  · exact .inl rfl
  · exact .inr ht

theorem writeReply (h : x.WalkLaw) : x.writeReply.WalkLaw := by
  have hhand := h.2.1
  unfold Exchange.writeReply
  split
  · exact h
  · next k hk =>
    split
    · exact h
    · exact h.finish _ _ _ (hhand k hk)

/-- However the take of a record of the window ends, the law stands (R171). -/
theorem endsTake {t : TakeHead} {z : Exchange} (ht : goodOffset t.off = true) (h : x.WalkLaw) (hz : x.EndsTake t z) :
    z.WalkLaw := by
  obtain ⟨y, hy, ⟨r, reply, -, rfl⟩ | ⟨k, rfl, rfl⟩⟩ := hz
  · exact (h.of_bearings hy).finish _ _ _ ht
  · obtain ⟨hcursor, -, hmem⟩ := h.of_bearings hy
    exact ⟨hcursor, fun k' hk' => Option.some.inj hk' ▸ ht, hmem⟩

end Exchange.WalkLaw

/-! ### The law under the state's operations -/

section state
variable {s u : State}

theorem State.walkLaw_of_bearings (h : s.ex.WalkLaw) (e : u.bearings = s.bearings) : u.ex.WalkLaw := h.of_bearings e

theorem State.exchangeSettled_walkLaw (h : s.ex.WalkLaw) : s.exchangeSettled.ex.WalkLaw := by
  obtain ⟨a, bs, ha, -, e⟩ := s.exchangeSettled_bearings
  exact Exchange.WalkLaw.writeBytes a bs (le_trans (by decide) ha) h e

theorem State.closeInterval_walkLaw (h : s.ex.WalkLaw) : s.closeInterval.ex.WalkLaw :=
  (State.exchangeSettled_walkLaw h).of_bearings (Exchange.pollExpires_bearings _).symm

theorem State.catchUp_walkLaw (h : s.ex.WalkLaw) : s.catchUp.ex.WalkLaw := by
  unfold State.catchUp
  split
  · exact h
  · refine State.walkLaw_of_bearings (s := s.setEx s.ex.writeReply) h.writeReply ?_
    rw [State.arbitrate_bearings, State.windowExpires_bearings, foldl_keeps (g := State.bearings) State.chanDue_bearings]

/-- A reply that a sample forms stays in the same record's hands. -/
theorem State.latchReply_walkLaw (h : s.ex.WalkLaw) : s.latchReply.WalkLaw := by
  obtain ⟨hcursor, hhand, hmem⟩ := h
  unfold State.latchReply
  split
  · exact ⟨hcursor, hhand, hmem⟩
  · next k hk =>
    split
    · exact ⟨hcursor, hhand, hmem⟩
    · exact ⟨hcursor, fun k' hk' => Option.some.inj hk' ▸ hhand k hk, hmem⟩

theorem State.boundaryRest_walkLaw (h : s.ex.WalkLaw) : s.boundaryRest.ex.WalkLaw := by
  rw [State.boundaryRest_eq]
  split
  · exact h
  · exact State.exchangeSettled_walkLaw (State.walkLaw_of_bearings h s.boundaryMade_bearings)

theorem State.takes_walkLaw {t : TakeHead} (ht : goodOffset t.off = true) (h : s.ex.WalkLaw) (hu : s.Takes t u) :
    u.ex.WalkLaw := by
  rcases hu with hu | ⟨-, hu⟩
  · exact h.endsTake ht hu
  · exact (State.exchangeSettled_walkLaw h).endsTake ht hu

/-- A walk takes a record of the window alone (R170 step 3). -/
theorem State.walkStep_walkLaw (h : s.ex.WalkLaw) : s.walkStep.ex.WalkLaw := by
  unfold State.walkStep
  dsimp only
  split
  · split
    · exact h.of_bearings (s.ex.deadEnd_bearings _)
    · next hgood =>
      split
      · exact h.of_bearings s.ex.stopWalk_bearings
      · exact State.takes_walkLaw (t := readHead s.ex.mem _) (Bool.eq_true_of_not_eq_false hgood) h (s.serveKind_takes _)
  · exact h

/-- A request command offers its record, and takes it where it lies in the window. -/
theorem State.record_walkLaw {i : Instr} {r : ReqHead} {kind : Byte} {args : List Byte}
    (hi : recordOf i = some (r, kind, args)) (h : s.ex.WalkLaw) (hu : exec i s = .next u) : u.ex.WalkLaw := by
  obtain ⟨-, serve, hexec, htakes⟩ := exec_record hi s
  obtain rfl := Host.Outcome.next.inj (hexec.symm.trans hu)
  have hoffer : (s.setEx (s.ex.offer r kind args)).ex.WalkLaw := h.offer r kind args
  split
  · split
    · next hwf => exact State.takes_walkLaw (t := takeHead r kind) hwf hoffer (htakes _)
    · exact hoffer.of_bearings (Exchange.deadEnd_bearings _ _)
  · exact hoffer

end state

/-! ### Every command -/

/-- Every command keeps the law of R168. -/
theorem exec_walkLaw {i : Instr} {s t : State} (h : s.ex.WalkLaw) (ht : exec i s = .next t) : t.ex.WalkLaw := by
  cases hi : recordOf i with
  | some r => exact State.record_walkLaw hi h ht
  | none =>
    cases i with
    | badKind | setAnalog | setPad | setPhantom | readChannel | resync | setGuard | setTrim | setMode | setFlags | claim
    | release | setFeed | loadSlotmap | loadShadow | swap | setClock | setExchange => cases hi
    | chainWalk writes =>
      simp only [exec, execChainWalk] at ht
      split at ht
      · cases ht
      · obtain rfl := Host.Outcome.next.inj ht
        exact State.walkStep_walkLaw (h.controllerCells writes)
    | powerOnReset => obtain rfl := Host.Outcome.next.inj ht; exact Exchange.reset_law.2
    | samplePeriod =>
      rw [exec_samplePeriod] at ht
      obtain rfl := Host.Outcome.next.inj ht
      rw [State.endPeriod_ex]
      have hbefore : s.before.ex.WalkLaw := (State.catchUp_walkLaw h).of_bearings (Exchange.joinAll_bearings _ _ _)
      refine State.boundaryRest_walkLaw ?_
      rw [State.sampled_ex]
      exact (State.latchReply_walkLaw hbefore).of_bearings (Exchange.joinAll_bearings _ _ _)
    | meterClose => obtain rfl := Host.Outcome.next.inj ht; exact State.closeInterval_walkLaw h
    | reportWrite => obtain rfl := Host.Outcome.next.inj ht; exact h.writeNext
    | replyWrite => obtain rfl := Host.Outcome.next.inj ht; exact h.writeReply
    | exchangeClear => obtain rfl := Host.Outcome.next.inj ht; exact h.askClear
    | clear on =>
      obtain rfl := Host.Outcome.next.inj ht
      split
      · exact h.askClear
      · exact h
    | registerWriteIgnored r v => obtain rfl := Host.Outcome.next.inj ht; exact h.writeReg r v
    | poke v =>
      obtain rfl := Host.Outcome.next.inj ht
      split
      · exact h.of_bearings s.ex.trigger_bearings
      · exact h
    | releaseWrite v => obtain rfl := Host.Outcome.next.inj ht; exact h.of_bearings (s.ex.giveBack_bearings _)
    | blocks code => obtain rfl := Host.Outcome.next.inj ht; exact h.of_bearings (s.ex.setBlocks_bearings _)
    | enable on => obtain rfl := Host.Outcome.next.inj ht; exact h.of_bearings (s.ex.setEnable_bearings _)
    | pollCountdownExpiry => obtain rfl := Host.Outcome.next.inj ht; exact h.of_bearings s.ex.pollExpires_bearings
    | laneFrame g f => obtain rfl := Host.Outcome.next.inj ht; exact h.of_bearings (s.judgeLane_bearings g f)
    | arbiterDecision first => obtain rfl := Host.Outcome.next.inj ht; exact h.of_bearings (s.arbitrate_bearings _)
    | answerCharacter ch => obtain rfl := Host.Outcome.next.inj ht; exact h.of_bearings (s.receiveChar_bearings ch)
    | answerWindowExpiry => obtain rfl := Host.Outcome.next.inj ht; exact h.of_bearings s.windowExpires_bearings
    | forcedStep c => obtain rfl := Host.Outcome.next.inj ht; exact h.of_bearings (s.forceStep_bearings c)
    | pendingApplication c => obtain rfl := Host.Outcome.next.inj ht; exact h.of_bearings (s.applyPending_bearings c)
    | rampEnd c => obtain rfl := Host.Outcome.next.inj ht; exact h.of_bearings (s.finishRamp_bearings c)
    | blockBoundary us ph => obtain rfl := Host.Outcome.next.inj ht; exact h.of_bearings (s.boundaryWork_bearings us ph)
    | swapApply => obtain rfl := Host.Outcome.next.inj ht; exact h.of_bearings (s.boundaryWork_bearings _ _)
    | acquisitionTimeout => obtain rfl := Host.Outcome.next.inj ht; exact h.of_bearings s.acquisitionGivesUp_bearings
    | clockRetry => obtain rfl := Host.Outcome.next.inj ht; exact h.of_bearings s.clockRetries_bearings
    | readbackRetry b => obtain rfl := Host.Outcome.next.inj ht; exact h.of_bearings (s.retryReadback_bearings b)
    | returnWord | wordClockEdge | noticeWrite | noticeMaskWrite => obtain rfl := Host.Outcome.next.inj ht; exact h

/-- Settles O6: the law does not speak of the queue of commands, so a step keeps it as its command does. -/
theorem cursorStaysInWindow : Obligations.CursorStaysInWindow := by
  unfold Obligations.CursorStaysInWindow
  intro s t h ht
  unfold step at ht
  split at ht
  · obtain rfl := Host.Outcome.next.inj ht
    exact h
  · next i rest _ =>
    have hrest : ({ s with pending := rest } : State).ex.WalkLaw := h
    exact exec_walkLaw hrest ht

end Sys2Proof.Machine
end

section
/-! PROOFS. A request command of any kind, wherever the walk stands: the record it writes and links, and the bytes it leaves
alone (R164, R169, R171 to R173, R178). -/

namespace Sys2Proof.Machine

/-! ### The end of the chain -/

/-- The end of the chain is where the walk stands, or a record of the window. -/
theorem chainTail_cases (m : List Host.Cell) (k off : Nat) :
    chainTail m k off = off ∨ goodOffset (chainTail m k off) = true := by
  induction k generalizing off with
  | zero => exact .inl rfl
  | succ k ih =>
    simp only [chainTail]
    split
    · next hnext =>
      rw [Bool.and_eq_true] at hnext
      rcases ih (nextField m off) with he | hgood
      · exact .inr (by rw [he]; exact hnext.1)
      · exact .inr hgood
    · exact .inl rfl

section offer
variable {x : Exchange} {h : ReqHead} {kind : Byte} {args : List Byte} (hx : x.WalkLaw)
include hx

/-- The controller extends the chain at the anchor or at a record of the window (R168, R170). -/
theorem Exchange.WalkLaw.tail_range : x.tail % 64 = 0 ∧ 0x40 ≤ x.tail ∧ x.tail ≤ 0xFFC0 := by
  obtain ⟨hcursor, hhand, -⟩ := hx
  have hstart (off : Nat) (hoff : off = Config.anchor ∨ goodOffset off = true) (ht : x.tail = chainTail x.mem 1022 off) :
      x.tail = Config.anchor ∨ goodOffset x.tail = true := by
    rw [ht]
    rcases chainTail_cases x.mem 1022 off with he | hgood
    · rwa [he]
    · exact .inr hgood
  have htail : x.tail = Config.anchor ∨ goodOffset x.tail = true := by
    cases hin : x.inHand with
    | none => exact hstart x.cursor hcursor (by rw [Exchange.tail, hin])
    | some k => exact hstart k.head.off (.inr (hhand k hin)) (by rw [Exchange.tail, hin])
  rcases htail with he | hgood
  · rw [he]; decide
  · obtain ⟨h64, hlow, hhigh⟩ := (goodOffset_iff _).1 hgood
    exact ⟨h64, by omega, hhigh⟩

/-! ### The offer -/

theorem Exchange.WalkLaw.mem_wf : Memory.wf x.mem := by
  obtain ⟨-, -, hmem, -⟩ := hx
  exact hmem

/-- The link leads to the offered record. -/
theorem Exchange.WalkLaw.offer_link : readBytes (x.offer h kind args).mem (x.tail + 8) 4 = wordBytes h.off := by
  obtain ⟨-, hlow, hhigh⟩ := hx.tail_range
  have hrecord : Memory.wf (if h.wf then controllerWrites x.mem h.off.toNat (recordBytes h kind args) else x.mem) := by
    split
    · exact controllerWrites_wf _ _ hx.mem_wf
    · exact hx.mem_wf
  simp only [Exchange.offer]
  rw [controllerWrites_eq (wordBytes h.off) _ (hlow.trans (Nat.le_add_right _ 8))
    (show x.tail + 8 + 4 ≤ 0x10000 by omega)]
  exact readBytes_writeBytes_same (wordBytes h.off) _ hrecord

/-- A field of the record, outside its next field, reads as the controller wrote it. -/
theorem Exchange.WalkLaw.offer_readBytes (hwf : h.wf = true) (ha : args.length ≤ 16) {k : Nat} (bs : List Byte)
    (hk : 12 ≤ k ∨ k + bs.length ≤ 8) (hbs : ((recordBytes h kind args).drop k).take bs.length = bs) :
    readBytes (x.offer h kind args).mem (h.off.toNat + k) bs.length = bs := by
  refine readBytes_eq_of_getD bs fun j hj => ?_
  have hlen := congrArg List.length hbs
  rw [List.length_take, List.length_drop, recordBytes_length h kind ha] at hlen
  obtain ⟨htail, -⟩ := hx.tail_range
  obtain ⟨hoff, -⟩ := (goodOffset_iff _).1 hwf
  rw [Exchange.offer_record kind hwf hx.mem_wf ha (i := k + j) (by omega) (Nat.add_assoc ..) (by omega)]
  conv_rhs => rw [← hbs]
  simp [List.getD_eq_getElem?_getD, hj]

end offer

/-- The tag, channel, feed, next and argument fields of a record. -/
theorem recordBytes_fields (h : ReqHead) (kind : Byte) (args : List Byte) (i : Nat) :
    (recordBytes h kind args).getD (i + 4) 0#8 =
      (little 2 h.tag.toNat ++ [h.channel, h.feed] ++ List.replicate 8 0#8 ++ padTo 16 args).getD i 0#8 := by
  rw [← halfBytes_little]
  rfl

/-! ### What a take writes -/

/-- An outcome stores the status word and, where the rule writes one, the reply (R171). -/
theorem Exchange.writeOutcome_storesOutcome (x : Exchange) (t : TakeHead) (r : Result) {reply : Option (List Byte)}
    (hl : ∀ bs, reply = some bs → bs.length ≤ 32) : x.StoresOutcome t.off (x.writeOutcome t r reply) := by
  cases reply with
  | none => exact fun a h1 _ => readByte_writeBytes_other _ _ h1
  | some bs => exact Exchange.writeOutcome_stores t r (hl bs rfl)

theorem Exchange.mem_of_bearings {x : Exchange} {cursor : Nat} {k : Option InHand} {m : List Host.Cell}
    (e : x.bearings = (cursor, k, m)) : x.mem = m := (Prod.mk.inj (Prod.mk.inj e).2).2

/-- However a take ends, it writes no byte but those of its outcome (R171). -/
theorem Exchange.EndsTake.stores {x z : Exchange} {t : TakeHead} (hz : x.EndsTake t z) : x.StoresOutcome t.off z := by
  obtain ⟨y, hy, ⟨r, reply, hl, rfl⟩ | ⟨k, -, rfl⟩⟩ := hz
  all_goals obtain ⟨-, -, hmem⟩ := Exchange.bearings_iff.1 hy
  · intro a h1 h2
    rw [Exchange.mem_of_bearings (y.finish_bearings t r reply), y.writeOutcome_storesOutcome t r hl a h1 h2, hmem]
  · intro a _ _
    exact congrArg (readByte · a) hmem

/-- What a boundary has run out writes no byte but a report's, and that only where a meter interval closes (R178). -/
theorem State.exchangeSettled_readByte (s : State) {a : Nat} (ha : a < 0x10000 ∨ s.ex.meterCountdown ≠ 0) :
    readByte s.exchangeSettled.ex.mem a = readByte s.ex.mem a := by
  obtain ⟨b, bs, hb, hbs, e⟩ := s.exchangeSettled_bearings
  have hmem : s.exchangeSettled.ex.mem = _ := Exchange.mem_of_bearings e
  rw [hmem]
  rcases ha with ha | hm
  · exact readByte_writeBytes_other _ _ (.inl (lt_of_lt_of_le ha hb))
  · rw [hbs hm]; rfl

/-- A take writes no byte but its outcome's, and those of a report where a SET_EXCHANGE closes a meter interval. -/
theorem State.Takes.readByte {s u : State} {t : TakeHead} (hu : s.Takes t u) {a : Nat}
    (ha : a < 0x10000 ∨ t.kind ≠ 17#8 ∨ s.ex.meterCountdown ≠ 0) (h1 : a < t.off ∨ t.off + 4 ≤ a)
    (h2 : a < t.off + 0x20 ∨ t.off + 0x40 ≤ a) : readByte u.ex.mem a = Machine.readByte s.ex.mem a := by
  rcases hu with hu | ⟨hkind, hu⟩
  · exact hu.stores a h1 h2
  · rw [hu.stores a h1 h2]
    exact s.exchangeSettled_readByte (ha.imp_right fun h => h.resolve_left fun hne => hne hkind)

/-! ### The request command -/

section record
variable {i : Instr} {s : State} {h : ReqHead} {kind : Byte} {args : List Byte}
  (hi : recordOf i = some (h, kind, args))
include hi

/-- A request command completes, and beside the offer writes no byte but those of its take. -/
theorem exec_record_readByte (hwf : h.wf = true) : ∃ t, exec i s = .next t ∧
    ∀ a, (a < 0x10000 ∨ kind ≠ 17#8 ∨ s.ex.meterCountdown ≠ 0) → (a < h.off.toNat ∨ h.off.toNat + 4 ≤ a) →
      (a < h.off.toNat + 0x20 ∨ h.off.toNat + 0x40 ≤ a) →
      readByte t.ex.mem a = readByte (s.ex.offer h kind args).mem a := by
  obtain ⟨-, serve, hexec, htakes⟩ := exec_record hi s
  refine ⟨_, hexec, fun a ha h1 h2 => ?_⟩
  split
  · exact (htakes (s.setEx (s.ex.offer h kind args))).readByte ha h1 h2
  · rfl

/-- While the walk does not stand at the end of the chain the command only offers its record (R169, R173). -/
theorem exec_record_waits (hat : s.ex.atTail = false) : exec i s = .next (s.setEx (s.ex.offer h kind args)) := by
  obtain ⟨-, serve, hexec, -⟩ := exec_record hi s
  refine hexec.trans (congrArg Host.Outcome.next (if_neg ?_))
  rw [hat]
  decide

variable (hx : s.ex.WalkLaw) (hwf : h.wf = true)
include hx hwf

/-- A request command leaves the chain linked to its record, the bytes beside the record and the link, and the fields of the
record that its take does not write (R171, R172). -/
theorem exec_record_staysInside : ∃ t, exec i s = .next t ∧ readWord t.ex.mem (s.ex.tail + 8) = h.off ∧
    (∀ a, a < 0x10000 ∨ kind ≠ 17#8 ∨ s.ex.meterCountdown ≠ 0 →
      (a < h.off.toNat ∨ h.off.toNat + 64 ≤ a) → (a < s.ex.tail + 8 ∨ s.ex.tail + 12 ≤ a) →
      readByte t.ex.mem a = readByte s.ex.mem a) ∧
    ∀ i a, i < 28 → a = h.off.toNat + 4 + i → (a < s.ex.tail + 8 ∨ s.ex.tail + 12 ≤ a) →
      readByte t.ex.mem a =
        (little 2 h.tag.toNat ++ [h.channel, h.feed] ++ List.replicate 8 0#8 ++ padTo 16 args).getD i 0#8 := by
  obtain ⟨hlen, -⟩ := exec_record hi s
  obtain ⟨htail, -, hhigh⟩ := hx.tail_range
  obtain ⟨hoff, hlow, hoffHigh⟩ := (goodOffset_iff _).1 hwf
  obtain ⟨t, ht, hreads⟩ := exec_record_readByte (s := s) hi hwf
  refine ⟨t, ht, readWord_of_bytes ?_, fun a ha h1 h2 => ?_, fun i a hi hai h2 => ?_⟩
  · rw [← hx.offer_link (kind := kind) (args := args)]
    exact readBytes_congr fun i hi => hreads _ (.inl (by omega)) (by omega) (by omega)
  · rw [hreads a ha (by omega) (by omega)]
    exact s.ex.offer_other h kind hlen (by omega) h2
  · rw [hreads a (.inl (by omega)) (by omega) (by omega), ← recordBytes_fields h kind args i]
    exact Exchange.offer_record kind hwf hx.mem_wf hlen (by omega) (by omega) h2

/-- A record that waits is OFFERED, linked and whole (R171, R173). -/
theorem exec_record_offered (hat : s.ex.atTail = false) :
    ∃ t, exec i s = .next t ∧ t = { s with ex := { s.ex with mem := t.ex.mem } } ∧
      readBytes t.ex.mem h.off.toNat 8 = [1#8, kind, h.source, 0#8] ++ halfBytes h.tag ++ [h.channel, h.feed] ∧
      readBytes t.ex.mem (h.off.toNat + 0x10) 16 = padTo 16 args ∧ readWord t.ex.mem (s.ex.tail + 8) = h.off := by
  obtain ⟨hlen, -⟩ := exec_record hi s
  refine ⟨_, exec_record_waits hi hat, rfl, ?_, ?_, readWord_of_bytes hx.offer_link⟩
  · exact hx.offer_readBytes (k := 0) hwf hlen ([1#8, kind, h.source, 0#8] ++ halfBytes h.tag ++ [h.channel, h.feed])
      (.inr (Nat.le_refl 8)) rfl
  · have hpad := padTo_length hlen
    have hargs := hx.offer_readBytes (kind := kind) (k := 0x10) hwf hlen (padTo 16 args) (.inl (by omega))
      (by rw [hpad]; exact List.take_of_length_le hpad.le)
    rwa [hpad] at hargs

end record

/-- Settles O46: every request offers its record, and its take writes the outcome alone, so what the offer wrote and left
stands. -/
theorem requestsWaitOrStayInside : Obligations.RequestsWaitOrStayInside := by
  intro s h k b1 b2 n1 n2 n3 n4 w m hx hwf
  suffices hrecord : ∀ p : Instr × Byte × List Byte, p ∈ _ → recordOf p.1 = some (h, p.2) from fun p hp =>
    ⟨exec_record_staysInside (hrecord p hp) hx hwf, exec_record_offered (hrecord p hp) hx hwf⟩
  simp only [List.forall_mem_cons, List.not_mem_nil, false_implies, implies_true, and_true]
  exact ⟨rfl, rfl, rfl, rfl, rfl, rfl, rfl, rfl, rfl, rfl, rfl, rfl, rfl, rfl, rfl, rfl, rfl, rfl⟩

end Sys2Proof.Machine
end

section
/-! PROOFS. REPORT_WRITE: which report comes next, where it is written, and the layouts and codes of the reports (R181, R185,
R186, R188). -/

namespace Sys2Proof.Machine

/-! ### The layouts -/

/-- The body of a GAP report. -/
theorem gapBody_eq (lost : Nat) (last : Option Word) :
    gapBody lost last = little 2 lost ++ [0#8, 0#8] ++ little 4 (last.getD 0#32).toNat := by
  rw [gapBody, u16_little, wordBytes_little]

theorem Event.body_length (e : Event) : e.body.length ≤ 504 := by
  cases e with
  | preamp b cause => cases cause <;> exact Nat.le_of_ble_eq_true rfl
  | _ => exact Nat.le_of_ble_eq_true rfl

/-- A byte of flags of which the layout names no more than three. -/
theorem bitsByte_three (b0 b1 b2 : Bool) : bitsByte b0 b1 b2 false false false false false = flags [b0, b1, b2] := by
  rw [bitsByte_flags]
  exact flags_append_false [b0, b1, b2] 5

/-! ### Which report is written -/

section writes
variable {x : Exchange}

theorem Exchange.writeNext_blocked (h : x.enable = false ∨ x.count ≤ x.filled) : x.writeNext = x := by
  refine if_neg fun hmay => ?_
  obtain ⟨hon, hroom⟩ := Exchange.mayWrite_iff.1 hmay
  rcases h with h | h
  · rw [hon] at h; cases h
  · omega

variable (hmay : x.mayWrite = true)
include hmay

theorem Exchange.writeNext_gap (h : 0 < x.lost) : x.writeNext =
    { x.store 14#8 (x.firstLost.getD 0#32) (gapBody x.lost x.lastLost) with
      lost := 0, firstLost := none, lastLost := none } := by
  rw [Exchange.writeNext, if_pos hmay, if_pos h]

variable (hlost : x.lost = 0)
include hlost

theorem Exchange.writeNext_event {q : QueuedEvent} {rest : List QueuedEvent} (h : x.queue = q :: rest) :
    x.writeNext = { x.store q.event.kind q.stamp q.event.body with queue := rest } := by
  rw [Exchange.writeNext, if_pos hmay, if_neg (by rw [hlost]; decide), h]

theorem Exchange.writeNext_snapshot (hqueue : x.queue = []) {m : Snapshot} (h : x.held = some m) :
    x.writeNext = { x.store 15#8 m.stamp m.body with held := none } := by
  rw [Exchange.writeNext, if_pos hmay, if_neg (by rw [hlost]; decide), hqueue, h]

theorem Exchange.writeNext_nothing (hqueue : x.queue = []) (h : x.held = none) : x.writeNext = x := by
  rw [Exchange.writeNext, if_pos hmay, if_neg (by rw [hlost]; decide), hqueue, h]

end writes

/-- A report that is stored by REPORT_WRITE stands in the next block, and nothing else in memory changes (R185, R186). -/
theorem exec_reportWrite_stores {s : State} {kind : Byte} {stamp : Word} {body : List Byte} {y : Exchange}
    (hlen : body.length ≤ 504) (hm : Memory.wf s.ex.mem)
    (h : s.ex.writeNext = { y with filled := s.ex.filled + 1, mem := (s.ex.store kind stamp body).mem }) :
    ∃ t, exec .reportWrite s = .next t ∧ t = { s with ex := { y with filled := s.ex.filled + 1, mem := t.ex.mem } } ∧
      s.ex.Reports (reportBlock kind s.ex.unitId stamp body) t.ex := by
  refine ⟨s.setEx s.ex.writeNext, rfl, ?_, ?_⟩
  · rw [h]
    rfl
  · rw [State.setEx_ex, h]
    exact s.ex.store_reports kind stamp hlen hm

/-- Settles O43: a GAP, else the head event, else the held snapshot goes into the next block; and each layout is that of the
model's bytes, field by field. -/
theorem reportWriteOrder : Obligations.ReportWriteOrder := by
  refine ⟨?_, ?_, rfl, rfl, rfl, rfl, rfl, rfl, rfl, rfl, rfl, rfl, rfl, rfl, rfl, rfl, fun _ => ⟨rfl, rfl⟩⟩
  · rintro s x rfl
    refine ⟨fun h => congrArg (fun x => Host.Outcome.next (s.setEx x)) (Exchange.writeNext_blocked h),
      fun hon hroom hm => ?_⟩
    have hmay : s.ex.mayWrite = true := Exchange.mayWrite_iff.2 ⟨hon, hroom⟩
    refine ⟨fun hlost hqueue hheld =>
      congrArg (fun x => Host.Outcome.next (s.setEx x)) (Exchange.writeNext_nothing hmay hlost hqueue hheld), ?_⟩
    rintro kind stamp body y (⟨hlost, rfl, rfl, rfl, rfl⟩ | ⟨hlost, q, rest, hqueue, rfl, rfl, rfl, rfl⟩ |
      ⟨hlost, hqueue, m, hheld, rfl, rfl, rfl, rfl⟩)
    · rw [← gapBody_eq]
      exact exec_reportWrite_stores (Nat.le_of_ble_eq_true rfl) hm (Exchange.writeNext_gap hmay hlost)
    · exact exec_reportWrite_stores q.event.body_length hm (Exchange.writeNext_event hmay hlost hqueue)
    · have hwrite := Exchange.writeNext_snapshot hmay hlost hqueue hheld
      rw [m.body_eq] at hwrite
      exact exec_reportWrite_stores ((meterBody_length m).le.trans (by decide)) hm hwrite
  · intro c b g p f on fault was held eq ext ph x e d i j n m k h tag lapp raw gain sw sk who new why lim sup mis l1 l2 lk w
      err k1 k2 f1 f2 r1 r2 src ck hh
    subst hh
    simp only [List.forall_mem_cons, List.not_mem_nil, false_implies, implies_true, and_true]
    refine ⟨⟨rfl, ?_⟩, ⟨rfl, ?_⟩, ⟨rfl, ?_⟩, ⟨rfl, ?_⟩, ⟨rfl, ?_⟩, ⟨rfl, ?_⟩, ⟨rfl, ?_⟩, ⟨rfl, ?_⟩, ⟨rfl, ?_⟩, ⟨rfl, ?_⟩,
      ⟨rfl, ?_⟩, ⟨rfl, ?_⟩, ⟨rfl, ?_⟩, ⟨rfl, ?_⟩, ⟨rfl, ?_⟩⟩
    all_goals
      simp only [Event.body, preampBody, tagOf, s16_little, u16_little, halfBytes_little, maskBytes_little,
        ← codeByte_little, u8_codeByte, flagByte_flags, bitsByte_three, List.append_assoc, List.cons_append,
        List.nil_append]
    all_goals rfl

end Sys2Proof.Machine
end

section
/-! PROOFS. The walk's triggers, the fields of CONTROL, and the exchange clear (R167, R169, R178, R179). -/

namespace Sys2Proof.Machine

/-! ### Triggers and the fields of CONTROL -/

section control
variable {x : Exchange}

/-- A trigger starts a walk, or sets the walk-again flag of the one that runs (R169). -/
theorem Exchange.trigger_eq (x : Exchange) : x.trigger = { x with walking := true, again := x.again || x.walking } := by
  unfold Exchange.trigger
  split
  · next h => rw [h, Bool.or_true, ← h]
  · next h => rw [Bool.eq_false_of_not_eq_true h, Bool.or_false]

theorem Exchange.pollExpires_due (hon : x.enable = true) (hpoll : 0 < x.pollInterval) (hout : x.pollCountdown = 0) :
    x.pollExpires = { x with pollCountdown := x.pollInterval, walking := true, again := x.again || x.walking } := by
  have hdue : x.pollDue = true := by simp [Exchange.pollDue, hon, hpoll, hout]
  rw [Exchange.pollExpires, if_pos hdue, Exchange.trigger_eq]

theorem Exchange.pollExpires_notDue (h : x.pollInterval = 0 ∨ x.pollCountdown ≠ 0) : x.pollExpires = x := by
  refine if_neg fun hdue => ?_
  simp only [Exchange.pollDue, Bool.and_eq_true, decide_eq_true_eq, beq_iff_eq] at hdue
  omega

theorem Exchange.setEnable_same (x : Exchange) : x.setEnable x.enable = x := if_pos rfl

theorem Exchange.setEnable_on (h : x.enable = false) : x.setEnable true = { x with
    enable := true, pollCountdown := x.pollInterval, walking := true, again := x.again || x.walking } := by
  rw [Exchange.setEnable, if_neg (by rw [h]; decide), if_pos rfl, Exchange.trigger_eq]

/-- ENABLE going to 0 drops the walk-again flag, after what the poll countdown has to raise (R167). -/
theorem Exchange.setEnable_off (h : x.enable = true) :
    x.setEnable false = { x.pollExpires with enable := false, again := false } := by
  rw [Exchange.setEnable, if_neg (by rw [h]; decide), if_neg (by decide)]

theorem Exchange.setBlocks_ignored {code : BitVec 2} (h : x.enable = true ∨ code = x.blocksCode) :
    x.setBlocks code = x := if_pos h

theorem Exchange.setBlocks_taken {code : BitVec 2} (hoff : x.enable = false) (hcode : code ≠ x.blocksCode) :
    x.setBlocks code = { x with blocksCode := code, oldest := 0, filled := 0 } :=
  if_neg (not_or_intro (by rw [hoff]; decide) hcode)

end control

/-- A write to POKE acts only while ENABLE is 1 (R169). -/
theorem exec_poke_on {s : State} (v : Word) (h : s.ex.enable = true) :
    exec (.poke v) s = .next (s.setEx s.ex.trigger) := congrArg Host.Outcome.next (if_pos h)

/-- Settles O37: each trigger and each field of CONTROL by its own equation. -/
theorem triggersAndControl : Obligations.TriggersAndControl := by
  unfold Obligations.TriggersAndControl
  rintro s v x rfl
  have hnext {x y : Exchange} (h : x = y) :
      Host.Outcome.next (s.setEx x) = (.next (s.setEx y) : Host.Outcome State Fault Refusal) :=
    congrArg (fun x => Host.Outcome.next (s.setEx x)) h
  refine ⟨fun hoff => congrArg Host.Outcome.next (if_neg (by rw [hoff]; decide)), fun hon hidle => ?_, fun hon hwalk => ?_,
    fun hon hpoll hout => hnext (Exchange.pollExpires_due hon hpoll hout), fun hoff => hnext (Exchange.setEnable_on hoff),
    fun hon => ⟨fun hpoll hout => hnext ?_, fun hnot => hnext ?_⟩, hnext s.ex.setEnable_same,
    fun code => ⟨fun h => hnext (Exchange.setBlocks_ignored h),
      fun hoff hcode => hnext (Exchange.setBlocks_taken hoff hcode)⟩⟩
  · exact (exec_poke_on v hon).trans (hnext (if_neg (by rw [hidle]; decide)))
  · exact (exec_poke_on v hon).trans (hnext (if_pos hwalk))
  · rw [Exchange.setEnable_off hon, Exchange.pollExpires_due hon hpoll hout]
  · rw [Exchange.setEnable_off hon, Exchange.pollExpires_notDue hnot]

/-! ### The exchange clear -/

section clear
variable {x : Exchange}

theorem Exchange.askClear_waits (h : x.inHand.isSome = true) : x.askClear = { x with clearAsked := true } := if_pos h

theorem Exchange.askClear_made (h : x.inHand = none) : x.askClear = x.cleared :=
  if_neg (by rw [h]; decide)

/-- A take that completes with a clear waiting ends in that clear, the outcome in memory (R179). -/
theorem Exchange.finish_cleared (t : TakeHead) (r : Result) (reply : Option (List Byte)) (h : x.clearAsked = true) :
    x.finish t r reply = { x.cleared with mem := (x.writeOutcome t r reply).mem } := by
  rw [Exchange.finish, Exchange.complete]
  cases hen : x.enable <;> simp [Exchange.writeOutcome, Exchange.cleared, h, hen]

end clear

/-- CLEAR and EXCHANGE_CLEAR ask for the same clear (R167, R179). -/
theorem exec_askClear {i : Instr} (s : State) (h : i = .clear true ∨ i = .exchangeClear) :
    exec i s = .next (s.setEx s.ex.askClear) := by
  rcases h with rfl | rfl <;> rfl

/-- Settles O42: the clear is made at once, or waits, and then ends the take of the record in hand. -/
theorem clearEmptiesExchange : Obligations.ClearEmptiesExchange := by
  unfold Obligations.ClearEmptiesExchange
  rintro s i cleared hi rfl
  refine ⟨rfl, fun hhand => ?_, fun hnone => ?_, fun k r bs hk hready hclear hl hm => ?_⟩
  · rw [exec_askClear s hi, Exchange.askClear_waits hhand]
    rfl
  · rw [exec_askClear s hi, Exchange.askClear_made hnone]
    rfl
  · have hfinish := (Exchange.writeReply_some hk hready).trans (Exchange.finish_cleared k.head r (some bs) hclear)
    obtain ⟨hheader, hreply⟩ := Exchange.writeOutcome_reads k.head r hm hl
    exact ⟨_, congrArg (fun x => Host.Outcome.next (s.setEx x)) hfinish, rfl, hheader, hreply,
      Exchange.writeOutcome_stores k.head r hl⟩

end Sys2Proof.Machine
end

section
/-! PROOFS. The registers as written and as read, the status area, and the notice line (R165 to R167, R180, R191, R192). -/

namespace Sys2Proof.Machine

/-! ### The NOTICE register and the notice line -/

/-- The NOTICE register, bit by bit (section 9.2). -/
theorem Exchange.notice_bits (x : Exchange) : x.notice.getLsbD 0 = x.reports ∧ x.notice.getLsbD 1 = x.sticky.urgent ∧
    x.notice.getLsbD 2 = x.sticky.chain ∧ x.notice.getLsbD 3 = x.sticky.excess ∧ x.notice.getLsbD 4 = x.sticky.lock := by
  have hbits : ∀ b0 b1 b2 b3 b4 : Bool,
      (BitVec.ofBool b4 ++ BitVec.ofBool b3 ++ BitVec.ofBool b2 ++ BitVec.ofBool b1 ++ BitVec.ofBool b0).getLsbD 0 = b0 ∧
      (BitVec.ofBool b4 ++ BitVec.ofBool b3 ++ BitVec.ofBool b2 ++ BitVec.ofBool b1 ++ BitVec.ofBool b0).getLsbD 1 = b1 ∧
      (BitVec.ofBool b4 ++ BitVec.ofBool b3 ++ BitVec.ofBool b2 ++ BitVec.ofBool b1 ++ BitVec.ofBool b0).getLsbD 2 = b2 ∧
      (BitVec.ofBool b4 ++ BitVec.ofBool b3 ++ BitVec.ofBool b2 ++ BitVec.ofBool b1 ++ BitVec.ofBool b0).getLsbD 3 = b3 ∧
      (BitVec.ofBool b4 ++ BitVec.ofBool b3 ++ BitVec.ofBool b2 ++ BitVec.ofBool b1 ++ BitVec.ofBool b0).getLsbD 4 = b4 := by
    decide
  exact hbits _ _ _ _ _

/-- A write to NOTICE clears the sticky bits it holds as 1, and never REPORTS (R166). -/
theorem Exchange.notice_clearBits (x : Exchange) (v : Word) :
    ({ x with sticky := x.sticky.clearBits v } : Exchange).notice = x.notice &&& ~~~(v.setWidth 5 &&& 0x1E#5) := by
  obtain ⟨a0, a1, a2, a3, a4⟩ := Exchange.notice_bits { x with sticky := x.sticky.clearBits v }
  obtain ⟨b0, b1, b2, b3, b4⟩ := x.notice_bits
  refine BitVec.eq_of_getLsbD_eq fun i hi => ?_
  rw [BitVec.getLsbD_and, BitVec.getLsbD_not, BitVec.getLsbD_and, BitVec.getLsbD_setWidth]
  have hcase : i = 0 ∨ i = 1 ∨ i = 2 ∨ i = 3 ∨ i = 4 := by omega
  rcases hcase with rfl | rfl | rfl | rfl | rfl
  · rw [a0, b0]; simp [Exchange.reports]
  · rw [a1, b1]; simp [Sticky.clearBits]
  · rw [a2, b2]; simp [Sticky.clearBits]
  · rw [a3, b3]; simp [Sticky.clearBits]
  · rw [a4, b4]; simp [Sticky.clearBits]

/-- A vector of bits is not 0 where some bit is on. -/
theorem bitVec_ne_zero_iff {w : Nat} (v : BitVec w) : v ≠ 0#w ↔ ∃ i, i < w ∧ v.getLsbD i = true := by
  constructor
  · intro h
    by_contra hall
    push Not at hall
    exact h (BitVec.eq_of_getLsbD_eq fun i hi => by simpa using hall i hi)
  · rintro ⟨i, -, hi⟩ rfl
    simp at hi

/-- The notice line is driven while ENABLE is 1 and some unmasked bit is on (R192). -/
theorem Exchange.noticeLine_iff (x : Exchange) : x.noticeLine = true ↔
    x.enable = true ∧ ∃ i, i < 5 ∧ x.notice.getLsbD i = true ∧ x.mask.getLsbD i = true := by
  rw [Exchange.noticeLine, Bool.and_eq_true, bne_iff_ne, bitVec_ne_zero_iff]
  simp only [BitVec.getLsbD_and, Bool.and_eq_true]

/-! ### The registers as read -/

theorem Exchange.readReg_control (x : Exchange) :
    (x.readReg .control).toNat = x.enable.toNat + 4 * x.blocksCode.toNat := by
  have hbits : ∀ (code : BitVec 2) (on : Bool),
      ((code ++ 0#1 ++ BitVec.ofBool on).setWidth 32 : Word).toNat = on.toNat + 4 * code.toNat := by decide
  exact hbits _ _

theorem Exchange.readReg_notice (x : Exchange) : (x.readReg .notice).toNat = x.reports.toNat +
    2 * x.sticky.urgent.toNat + 4 * x.sticky.chain.toNat + 8 * x.sticky.excess.toNat + 16 * x.sticky.lock.toNat := by
  have hbits : ∀ b0 b1 b2 b3 b4 : Bool, ((BitVec.ofBool b4 ++ BitVec.ofBool b3 ++ BitVec.ofBool b2 ++ BitVec.ofBool b1 ++
      BitVec.ofBool b0).setWidth 32 : Word).toNat =
      b0.toNat + 2 * b1.toNat + 4 * b2.toNat + 8 * b3.toNat + 16 * b4.toNat := by decide
  exact hbits _ _ _ _ _

/-- The low five bits of a word. -/
theorem setWidth_five (v : Word) : (v.setWidth 5).setWidth 32 = v &&& 0x1F#32 := by
  refine BitVec.eq_of_toNat_eq ?_
  rw [BitVec.toNat_and, BitVec.toNat_setWidth, BitVec.toNat_setWidth]
  change v.toNat % 2 ^ 5 % 2 ^ 32 = v.toNat &&& (2 ^ 5 - 1)
  rw [Nat.and_two_pow_sub_one_eq_mod]
  omega

/-! ### The bits of a written word that a register does not name (R166) -/

section named
variable (x : Exchange) (v : Word)

theorem Exchange.writeReg_control_named : x.writeReg .control (v &&& 0xF#32) = x.writeReg .control v := by
  have hblocks : (v &&& 0xF#32).extractLsb' 2 2 = v.extractLsb' 2 2 := by
    refine BitVec.eq_of_getLsbD_eq fun i hi => ?_
    have hcase : i = 0 ∨ i = 1 := by omega
    rcases hcase with rfl | rfl <;> simp
  have hbit (i : Nat) (hi : i = 0 ∨ i = 1) : (v &&& 0xF#32).getLsbD i = v.getLsbD i := by
    rcases hi with rfl | rfl <;> simp
  simp only [Exchange.writeReg, hblocks, hbit 0 (.inl rfl), hbit 1 (.inr rfl)]

theorem Exchange.writeReg_release_named : x.writeReg .release (v &&& 0xFF#32) = x.writeReg .release v := by
  have hlow : (v &&& 0xFF#32).toNat % 256 = v.toNat % 256 := by
    rw [BitVec.toNat_and]
    change (v.toNat &&& (2 ^ 8 - 1)) % 256 = _
    rw [Nat.and_two_pow_sub_one_eq_mod]
    omega
  simp only [Exchange.writeReg, hlow]

theorem Exchange.writeReg_notice_named : x.writeReg .notice (v &&& 0x1F#32) = x.writeReg .notice v := by
  simp [Exchange.writeReg, Sticky.clearBits]

theorem Exchange.writeReg_noticeMask_named : x.writeReg .noticeMask (v &&& 0x1F#32) = x.writeReg .noticeMask v := by
  have hlow : (v &&& 0x1F#32).setWidth 5 = v.setWidth 5 := by
    rw [← setWidth_five]
    simp
  simp only [Exchange.writeReg, hlow]

end named

/-! ### The status area -/

theorem padTo_getD (n a : Nat) (bs : List Byte) : (padTo n bs).getD a 0#8 = bs.getD a 0#8 := by
  simp only [padTo, List.getD_eq_getElem?_getD, List.getElem?_append]
  split
  · rfl
  · next h =>
    rw [List.getElem?_eq_none (Nat.le_of_not_lt h)]
    cases hr : (List.replicate (n - bs.length) 0#8)[a - bs.length]? with
    | none => rfl
    | some b => exact (List.eq_of_mem_replicate (List.mem_of_getElem? hr))

/-- The status area shows its fields, each by its layout (R165, R180). -/
theorem State.readMem_status (s : State) {a : Nat} (ha : a < 0x40) : s.readMem a =
    (little 2 0x0640 ++ [1#8, 0#8] ++ little 4 s.ex.cursor ++ little 2 s.ex.filled ++ little 2 s.ex.oldest ++
      little 2 s.ex.lost ++ [lockByte s.clock.lock, refByte s.clock.ref] ++
        little 4 s.ex.frameSnapshot.toNat).getD a 0#8 := by
  rw [State.readMem, if_pos (show a < Config.anchor from ha), State.statusBytes, padTo_getD,
    u16_little, u16_little, u16_little, halfBytes_little, wordBytes_little s.ex.frameSnapshot, ← wordBytes_ofInt s.ex.cursor, BitVec.ofInt_natCast]
  rfl

/-! ### The commands -/

/-- A write of a whole word to CONTROL is its three fields in turn (R167). -/
theorem exec_registerWrite_control {s s1 s2 : State} (v : Word) (h1 : exec (.blocks (v.extractLsb' 2 2)) s = .next s1)
    (h2 : exec (.enable (v.getLsbD 0)) s1 = .next s2) :
    exec (.registerWriteIgnored .control v) s = exec (.clear (v.getLsbD 1)) s2 := by
  obtain rfl := Host.Outcome.next.inj h1
  obtain rfl := Host.Outcome.next.inj h2
  change Host.Outcome.next (s.setEx (s.ex.writeReg .control v)) = .next (if v.getLsbD 1 then _ else _)
  simp only [Exchange.writeReg]
  split
  · rfl
  · rfl

/-- Settles O41: each register and the status area by its own lemma. -/
theorem noticeRegisters : Obligations.NoticeRegisters := by
  unfold Obligations.NoticeRegisters
  intro s v
  have hwrite {r : Reg} {m : Word} (h : s.ex.writeReg r (v &&& m) = s.ex.writeReg r v) :
      exec (.registerWriteIgnored r v) s = exec (.registerWriteIgnored r (v &&& m)) s :=
    congrArg (fun x => Host.Outcome.next (s.setEx x)) h.symm
  refine ⟨⟨_, rfl, rfl, s.ex.notice_clearBits v⟩, ⟨_, rfl, rfl, setWidth_five v⟩, rfl, ?_, ?_, rfl, rfl, rfl,
    fun s1 s2 => exec_registerWrite_control v,
    ⟨rfl, rfl, rfl, s.ex.readReg_control, s.ex.readReg_notice⟩, fun a ha => ?_, ?_, s.ex.noticeLine_iff⟩
  · simp only [List.forall_mem_cons, List.not_mem_nil, false_implies, implies_true, and_true]
    exact ⟨hwrite (s.ex.writeReg_control_named v), hwrite (s.ex.writeReg_release_named v),
      hwrite (s.ex.writeReg_notice_named v), hwrite (s.ex.writeReg_noticeMask_named v)⟩
  · change Host.Outcome.next (s.setEx (s.ex.writeReg .poke v)) = .next (if s.ex.enable then _ else _)
    simp only [Exchange.writeReg]
    split
    · rfl
    · rfl
  · rw [s.readMem_status ha]
    cases s.clock.lock <;> cases s.clock.ref <;> rfl
  · rw [s.ex.notice_bits.1, Exchange.reports, decide_eq_true_eq]

end Sys2Proof.Machine
end

section
/-! PROOFS. SET_EXCHANGE at its take: what a boundary has run out comes to its end first, and then the chosen settings are
stored (R175, R177, R178, R180). -/

namespace Sys2Proof.Machine

/-! ### What the boundary's work leaves of the exchange -/

/-- Where no countdown of the exchange has run out, its boundary work is whole. -/
theorem State.exchangeSettled_of_calm {s : State} (hmeter : s.ex.meterCountdown ≠ 0)
    (hpoll : s.ex.pollInterval = 0 ∨ s.ex.pollCountdown ≠ 0) : s.exchangeSettled = s := by
  have hclose : s.closeInterval = s := if_neg fun hdue => hmeter (beq_iff_eq.1 hdue)
  rw [State.exchangeSettled, hclose, Exchange.pollExpires_notDue hpoll]
  rfl

/-! ### A take beside a report -/

/-- A byte after a write of bytes is that of the bytes written, or the one that was there. -/
theorem readByte_writeBytes_congr {m m' : List Host.Cell} (bs : List Byte) (a : Nat) {b : Nat} (hm : Memory.wf m)
    (hm' : Memory.wf m') (h : readByte m b = readByte m' b) :
    readByte (writeBytes m a bs) b = readByte (writeBytes m' a bs) b := by
  by_cases hb : b < a ∨ a + bs.length ≤ b
  · rw [readByte_writeBytes_other _ _ hb, readByte_writeBytes_other _ _ hb, h]
  · obtain ⟨i, rfl⟩ := Nat.exists_eq_add_of_le (show a ≤ b by omega)
    rw [readByte_writeBytes_same bs a hm i (by omega), readByte_writeBytes_same bs a hm' i (by omega)]

/-- The chain lies below the report area: what stands there does not move its end (R164, R170). -/
theorem chainTail_congr {m m' : List Host.Cell} (h : ∀ a, a < 0x10000 → readByte m a = readByte m' a) (k : Nat) {off : Nat}
    (hoff : off ≤ 0xFFC0) : chainTail m k off = chainTail m' k off := by
  induction k generalizing off with
  | zero => rfl
  | succ k ih =>
    have hnext : nextField m off = nextField m' off := by
      simp only [nextField, readWord, readHalf]
      rw [h _ (by omega), h _ (by omega), h _ (by omega), h _ (by omega)]
    simp only [chainTail, hnext]
    by_cases hgood : goodOffset (nextField m' off) = true
    · obtain ⟨-, -, hhigh⟩ := (goodOffset_iff _).1 hgood
      rw [ih hhigh, offered, offered, h _ (by omega)]
    · simp only [Bool.eq_false_of_not_eq_true hgood, Bool.false_and, Bool.false_eq_true, if_false]

/-- An answer written into a record of a ready exchange completes its take, with what the boundary's work wrote into the
report area beside it (R171, R178). -/
theorem Exchange.took_beside {s : State} {h : ReqHead} (hr : s.Ready h) {x : Exchange} {kind : Byte} {args : List Byte}
    (hargs : args.length ≤ 16) (r : Result) {reply : List Byte} (hl : reply.length ≤ 32) {a : Nat} {bs : List Byte}
    (ha : Config.windowEnd ≤ a) (hmem : x.mem = writeBytes s.ex.mem a bs) (hin : x.inHand = s.ex.inHand)
    (hcursor : x.cursor = s.ex.cursor) (henable : x.enable = s.ex.enable) (hasked : x.clearAsked = s.ex.clearAsked)
    {m : List Host.Cell} (hm : m = writeBytes (s.ex.offer h kind args).mem a bs) :
    x.Took h kind r (some reply) (({ x with mem := m } : Exchange).finish (takeHead h kind) r (some reply)) := by
  have hmemwf := hr.mem_wf
  have hcursorle := hr.cursor_range.2
  obtain ⟨hat, hw, hon, hclear, -⟩ := hr
  obtain ⟨-, -, hhigh⟩ := (goodOffset_iff _).1 hw
  have hnone : s.ex.inHand = none := Exchange.inHand_of_atTail hat
  have hbelow (m : List Host.Cell) (b : Nat) (hb : b < 0x10000) : readByte (writeBytes m a bs) b = readByte m b :=
    readByte_writeBytes_other _ _ (.inl (lt_of_lt_of_le hb ha))
  have htail : x.tail = s.ex.tail := by
    rw [Exchange.tail, Exchange.tail, hin, hnone, hcursor, hmem]
    exact chainTail_congr (fun b hb => hbelow _ b hb) _ hcursorle
  have hofferwf := s.ex.offer_wf h kind args hmemwf
  have hmwf : Memory.wf m := hm ▸ writeBytes_wf _ _ hofferwf
  obtain ⟨hheader, hreply⟩ := Exchange.writeOutcome_reads (x := { x with mem := m }) (takeHead h kind) r hmwf hl
  have hstores := Exchange.writeOutcome_stores (x := { x with mem := m }) (takeHead h kind) r hl
  have hstands := Exchange.offer_header kind hw hmemwf hargs
  have hoff : (takeHead h kind).off = h.off.toNat := rfl
  rw [Exchange.finish_eq (x := { x with mem := m }) _ _ _ (hasked.trans hclear)]
  refine ⟨?_, hheader, hreply, fun i b hi hb hlink => ?_, fun b hrecord hlink => ?_⟩
  · dsimp only
    rw [henable, hon, Bool.and_true, Bool.and_true, ← hin.trans hnone, ← hon, ← henable]
    rfl
  · rw [htail] at hlink
    calc readByte _ b
        = readByte m b := hstores b (by omega) (by omega)
      _ = readByte (s.ex.offer h kind args).mem b := by rw [hm, hbelow _ b (by omega)]
      _ = _ := hstands i b hi hb hlink
  · rw [htail] at hlink
    calc readByte _ b
        = readByte m b := hstores b (by omega) (by omega)
      _ = readByte (writeBytes (s.ex.offer h kind args).mem a bs) b := by rw [hm]
      _ = readByte (writeBytes s.ex.mem a bs) b :=
        readByte_writeBytes_congr bs a hofferwf hmemwf (s.ex.offer_other h kind hargs (by omega) hlink)
      _ = readByte x.mem b := by rw [hmem]

/-! ### The take -/

section take
variable {s : State} {h : ReqHead} {src : Source} (hr : s.Ready h) (hs : decodeSource h.source = some src) {select : Byte}
  {threshold poll meter : Half} {unitId : Byte}
include hr hs

/-- A selector with a bit above 3 (R177). -/
theorem served_setExchange_badArg (hsel : 15 < select.toNat) :
    Served (.setExchange h select threshold poll meter unitId) s s h 17#8 .badArg none :=
  served_of_refusal hr (serve := fun s t => s.serveSetExchange t select threshold poll meter unitId)
    (args := [select, 0#8] ++ halfBytes threshold ++ halfBytes poll ++ halfBytes meter ++ [unitId]) rfl
    (Nat.le_of_ble_eq_true rfl) fun u => by
      rw [State.serveSetExchange, u.withSource_of_decoded 17#8 _ hs, if_pos hsel]

/-- SET_EXCHANGE stores the settings in the exchange that the boundary's work leaves, and replies with them (R177, R178). -/
theorem served_setExchange (hsel : select.toNat ≤ 15) {x : Exchange}
    (hx : x = s.exchangeSettled.ex.configure select threshold.toNat poll.toNat meter.toNat unitId.toNat) :
    Served (.setExchange h select threshold poll meter unitId) s (s.exchangeSettled.setEx x) h 17#8
      (okOr (exchangeClamped select threshold.toNat poll.toNat meter.toNat unitId.toNat)) (some x.settingsReply) := by
  obtain ⟨a, bs, ha, -, hset⟩ := s.exchangeSettled_withMem
  have hserve : exec (.setExchange h select threshold poll meter unitId) s =
      s.request h 17#8 ([select, 0#8] ++ halfBytes threshold ++ halfBytes poll ++ halfBytes meter ++ [unitId]) (fun s t
        => s.serveSetExchange t select threshold poll meter unitId) := rfl
  have htake := hserve.trans (hr.request 17#8 _ _)
  simp only [State.serveSetExchange] at htake
  rw [State.withSource_of_decoded _ 17#8 _ hs, if_neg (Nat.not_lt.2 hsel), Exchange.offer_frame, hset] at htake
  refine ⟨_, htake, rfl, ?_⟩
  have hmem : x.mem = writeBytes s.ex.mem a bs := by
    rw [hx]; exact congrArg (fun u => u.ex.mem) (hset s.ex.mem)
  obtain ⟨hcursor, henable, hasked⟩ := s.exchangeSettled_walk
  have hin := s.exchangeSettled_inHand
  subst hx
  exact Exchange.took_beside hr (Nat.le_of_ble_eq_true rfl) _ (Nat.le_of_ble_eq_true rfl) ha hmem hin
    hcursor henable hasked rfl

end take

/-! ### The settings -/

/-- CLAMPED where a chosen value was moved (R177). -/
theorem okOr_exchangeClamped (select : Byte) (threshold poll meter unitId : Nat) :
    okOr (exchangeClamped select threshold poll meter unitId) =
      if (select.getLsbD 0 = true → threshold ≤ 128) ∧ (select.getLsbD 1 = true → poll ≤ 100) ∧
        (select.getLsbD 2 = true → 10 ≤ meter ∧ meter ≤ 250) ∧ (select.getLsbD 3 = true → unitId ≤ 7)
      then .ok else .clamped := by
  have hkept (b : Bool) (lo hi n : Nat) (hle : lo ≤ hi) :
      (b && clampNat lo hi n != n) = false ↔ (b = true → lo ≤ n ∧ n ≤ hi) := by
    rw [Bool.and_eq_false_imp, bne_eq_false_iff_eq, clampNat]
    exact imp_congr_right fun _ => by omega
  have hall : ¬ exchangeClamped select threshold poll meter unitId = true ↔
      (select.getLsbD 0 = true → threshold ≤ 128) ∧ (select.getLsbD 1 = true → poll ≤ 100) ∧
        (select.getLsbD 2 = true → 10 ≤ meter ∧ meter ≤ 250) ∧ (select.getLsbD 3 = true → unitId ≤ 7) := by
    simp only [Bool.not_eq_true, exchangeClamped, Bool.or_eq_false_iff, and_assoc]
    rw [hkept _ 0 128 _ (by omega), hkept _ 0 100 _ (by omega), hkept _ 10 250 _ (by omega), hkept _ 0 7 _ (by omega)]
    simp only [Nat.zero_le, true_and]
  rw [okOr, ← ite_not]
  exact if_congr hall rfl rfl

/-- Settles O60: the boundary's work first, then the settings in their ranges, then the record's outcome. -/
theorem setExchangeStoresSettings : Obligations.SetExchangeStoresSettings := by
  intro s h src select threshold poll meter unitId hr hs
  refine ⟨served_setExchange_badArg hr hs, s.closeInterval, s.exchangeSettled, rfl, rfl,
    State.exchangeSettled_of_calm, ?_⟩
  rintro hsel b0 b1 b2 b3 x rfl rfl rfl rfl hx
  have hconfigured : x = s.exchangeSettled.ex.configure select threshold.toNat poll.toNat meter.toNat unitId.toNat := by
    simp only [hx, Exchange.configure, clampNat, Nat.zero_max]
  rw [← okOr_exchangeClamped]
  exact served_setExchange hr hs hsel hconfigured

end Sys2Proof.Machine
end

section
/-! PROOFS. RELEASE gives back the oldest blocks (R189), and an event joins the queue or is lost (R187, section 10.2). -/

namespace Sys2Proof.Machine

/-! ### RELEASE -/

theorem exec_releaseWrite (s : State) (v : Word) :
    exec (.releaseWrite v) s = .next { s with ex := s.ex.giveBack (v.toNat % 256) } := rfl

theorem Exchange.giveBack_filled {x : Exchange} {n : Nat} (h : n ≤ x.filled) :
    x.giveBack n = { x with oldest := (x.oldest + n) % x.count, filled := x.filled - n } := if_pos h

theorem Exchange.giveBack_excess {x : Exchange} {n : Nat} (h : x.filled < n) :
    x.giveBack n = { x with
      oldest := x.nextBlock, filled := 0, sticky := { x.sticky with excess := true } } := if_neg (Nat.not_le.2 h)

theorem Exchange.giveBack_zero {x : Exchange} (h : x.oldest < x.count) : x.giveBack 0 = x := by
  rw [Exchange.giveBack_filled (Nat.zero_le _), Nat.add_zero, Nat.mod_eq_of_lt h, Nat.sub_zero]

/-- Settles O40: as many blocks as are given back, or all that are filled. -/
theorem releaseGivesBack : Obligations.ReleaseGivesBack := by
  unfold Obligations.ReleaseGivesBack
  rintro s v n rfl
  rw [exec_releaseWrite]
  refine ⟨fun hzero hold => ?_, fun hle => ?_, fun hlt => ?_⟩
  · rw [hzero, Exchange.giveBack_zero hold]
  · rw [Exchange.giveBack_filled hle]
  · rw [Exchange.giveBack_excess hlt]

/-! ### An event handed over -/

theorem Exchange.join_room {x : Exchange} (q : QueuedEvent) (h : x.queue.length < 32) : x.join q = { x with
    queue := x.queue ++ [q], sticky := { x.sticky with urgent := x.sticky.urgent || q.event.urgent } } := if_pos h

theorem Exchange.join_full {x : Exchange} (q : QueuedEvent) (h : 32 ≤ x.queue.length) : x.join q = { x with
    lost := min 65535 (x.lost + 1), lastLost := some q.stamp
    firstLost := if x.lost = 0 then some q.stamp else x.firstLost
    sticky := { x.sticky with urgent := true } } := if_neg (Nat.not_lt.2 h)

/-- The URGENT events (section 10.2). -/
theorem Event.urgent_iff (e : Event) : e.urgent = true ↔
    (∃ b k, e = .preamp b k) ∨ (∃ g f, e = .input g f) ∨
    (∃ k1 k2 f1 f2 r1 r2 src k i j n l1 l2 ext tag, e = .clock k1 k2 f1 f2 r1 r2 src k i j n l1 l2 ext tag) ∨
    ∃ p l1 l2 k n w tag, e = .link p l1 l2 k n w tag ∧ (l1 = .down ∨ l2 = .down) := by
  cases e with
  | preamp | input | clock => simp [Event.urgent]
  | link p former new => simp [Event.urgent]
  | gainDone | gainCancelled | ownership | guard | guardFloor | limit | phantom | swapDone | mismatch =>
    simp [Event.urgent]

/-- Settles O44: room in the queue or none, and the class of each kind of event. -/
theorem eventJoinsOrIsLost : Obligations.EventJoinsOrIsLost := by
  unfold Obligations.EventJoinsOrIsLost
  intro s e
  refine ⟨fun hroom => ?_, fun hfull => ?_, e.urgent_iff⟩
  · rw [State.raise, Exchange.join_room _ hroom]; rfl
  · rw [State.raise, Exchange.join_full _ hfull]; rfl

end Sys2Proof.Machine
end

section
/-! PROOFS. The bounds of the queue and of the report store under the Exchange Unit's own operations, wherever its cursor and
its memory stand: the law of R185 and R187 without that of R168 (R169, R170, R179, R185 to R190). -/

namespace Sys2Proof.Machine

namespace Exchange.StoreLaw
variable {x : Exchange}

/-! ### The store and the queue -/

theorem store (h : x.StoreLaw) (hroom : x.filled < x.count) (kind : Byte) (stamp : Word) (body : List Byte) :
    (x.store kind stamp body).StoreLaw := by
  obtain ⟨hqueue, -, hrest⟩ := h
  exact ⟨hqueue, hroom, hrest⟩

/-- A report takes a free block, and an event that is written leaves the queue (R186). -/
theorem writeNext (h : x.StoreLaw) : x.writeNext.StoreLaw := by
  unfold Exchange.writeNext
  split
  · next hmay =>
    simp only [Exchange.mayWrite, Bool.and_eq_true, decide_eq_true_eq] at hmay
    have hstore := h.store hmay.2
    split
    · exact hstore 14#8 (x.firstLost.getD 0#32) (gapBody x.lost x.lastLost)
    · split
      · next q rest hq =>
        obtain ⟨hqueue, hrest⟩ := hstore q.event.kind q.stamp q.event.body
        change x.queue.length ≤ _ at hqueue
        rw [hq] at hqueue
        exact ⟨(Nat.le_succ _).trans hqueue, hrest⟩
      · split
        · next m _ => exact hstore 15#8 m.stamp m.body
        · exact h
  · exact h

theorem takeSnapshot (m : Snapshot) (h : x.StoreLaw) : (x.takeSnapshot m).StoreLaw := by
  cases hheld : x.held with
  | some old => rw [Exchange.takeSnapshot_merges m hheld]; exact h
  | none =>
    by_cases hfree : x.lost = 0 ∧ x.queue = [] ∧ x.enable = true ∧ x.filled < x.count
    · obtain ⟨hlost, hqueue, hon, hroom⟩ := hfree
      rw [Exchange.takeSnapshot_writes m hheld hlost hqueue hon hroom]
      exact h.store hroom _ _ _
    · rw [Exchange.takeSnapshot_holds m hheld hfree]; exact h

theorem giveBack (n : Nat) (h : x.StoreLaw) : (x.giveBack n).StoreLaw := by
  obtain ⟨hqueue, hfilled, -, hwalk⟩ := h
  unfold Exchange.giveBack
  split
  · exact ⟨hqueue, (Nat.sub_le _ _).trans hfilled, Nat.mod_lt _ x.count_pos, hwalk⟩
  · exact ⟨hqueue, Nat.zero_le _, Nat.mod_lt _ x.count_pos, hwalk⟩

/-- A change of the block count empties the store (R167). -/
theorem setBlocks (code : BitVec 2) (h : x.StoreLaw) : (x.setBlocks code).StoreLaw := by
  obtain ⟨hqueue, -, -, hwalk⟩ := id h
  unfold Exchange.setBlocks
  split
  · exact h
  · exact ⟨hqueue, Nat.zero_le _, Exchange.count_pos _, hwalk⟩

/-! ### The walk -/

theorem trigger (h : x.StoreLaw) : x.trigger.StoreLaw := by
  obtain ⟨hqueue, hfilled, hold, -, hclear⟩ := h
  rw [Exchange.trigger_eq]
  exact ⟨hqueue, hfilled, hold, fun _ => rfl, hclear⟩

/-- With no record in hand a walk may stop. -/
theorem of_inHand_none {y : Exchange} (h : x.StoreLaw) (hhand : x.inHand = none)
    (e : y = { x with walking := y.walking, again := y.again, sticky := y.sticky }) : y.StoreLaw := by
  obtain ⟨hqueue, hfilled, hold, -, hclear⟩ := h
  rw [e]
  exact ⟨hqueue, hfilled, hold, fun hsome => by simp [hhand] at hsome, hclear⟩

theorem stopWalk (h : x.StoreLaw) (hhand : x.inHand = none) : x.stopWalk.StoreLaw :=
  h.of_inHand_none hhand (by unfold Exchange.stopWalk; split <;> rfl)

theorem deadEnd (next : Nat) (h : x.StoreLaw) (hhand : x.inHand = none) : (x.deadEnd next).StoreLaw := by
  have hchain : ({ x with sticky := { x.sticky with chain := true } } : Exchange).StoreLaw := h
  unfold Exchange.deadEnd
  split
  · exact h.stopWalk hhand
  · exact hchain.stopWalk hhand

theorem pollExpires (h : x.StoreLaw) : x.pollExpires.StoreLaw := by
  have hreload : ({ x with pollCountdown := x.pollInterval } : Exchange).StoreLaw := h
  unfold Exchange.pollExpires
  split
  · exact hreload.trigger
  · exact h

theorem setEnable (on : Bool) (h : x.StoreLaw) : (x.setEnable on).StoreLaw := by
  have hon : ({ x with enable := true, pollCountdown := x.pollInterval } : Exchange).StoreLaw := h
  unfold Exchange.setEnable
  split
  · exact h
  · split
    · exact hon.trigger
    · exact h.pollExpires

/-! ### The exchange clear and the end of a take -/

/-- A clear leaves nothing queued, nothing filled and no walk (R179). -/
theorem cleared (x : Exchange) : x.cleared.StoreLaw :=
  ⟨Nat.zero_le _, Nat.zero_le _, x.count_pos, fun hsome => (nomatch hsome), fun hasked => (nomatch hasked)⟩

theorem askClear (h : x.StoreLaw) : x.askClear.StoreLaw := by
  unfold Exchange.askClear
  split
  · next hsome =>
    obtain ⟨hqueue, hfilled, hold, hwalk, -⟩ := h
    exact ⟨hqueue, hfilled, hold, hwalk, fun _ => hsome⟩
  · exact cleared x

theorem writeReg (r : Reg) (v : Word) (h : x.StoreLaw) : (x.writeReg r v).StoreLaw := by
  cases r with
  | ident | notice | noticeMask => exact h
  | release => exact h.giveBack _
  | poke =>
    simp only [Exchange.writeReg]
    split
    · exact h.trigger
    · exact h
  | control =>
    have hset := (h.setBlocks (v.extractLsb' 2 2)).setEnable (v.getLsbD 0)
    simp only [Exchange.writeReg]
    split
    · exact hset.askClear
    · exact hset

/-- A take that is complete leaves no record in hand, and makes the clear that waited for it (R170, R179). -/
theorem complete (t : TakeHead) (h : x.StoreLaw) : (x.complete t).StoreLaw := by
  obtain ⟨hqueue, hfilled, hold, -, -⟩ := h
  have hdone (walking again : Bool) (y : Exchange) (hy : y = { x with
      cursor := t.off, inHand := none, walking := walking, again := again }) :
      (if y.clearAsked then y.cleared else y).StoreLaw := by
    split
    · exact cleared y
    · next hasked =>
      subst hy
      exact ⟨hqueue, hfilled, hold, fun hsome => (nomatch hsome), fun hclear => absurd hclear hasked⟩
  unfold Exchange.complete
  dsimp only
  split
  · exact hdone _ _ _ rfl
  · exact hdone _ _ _ rfl

theorem finish (t : TakeHead) (r : Result) (reply : Option (List Byte)) (h : x.StoreLaw) :
    (x.finish t r reply).StoreLaw := by
  have houtcome : (x.writeOutcome t r reply).StoreLaw := h
  exact houtcome.complete t

theorem writeReply (h : x.StoreLaw) : x.writeReply.StoreLaw := by
  unfold Exchange.writeReply
  split
  · exact h
  · split
    · exact h
    · exact h.finish _ _ _

end Exchange.StoreLaw

end Sys2Proof.Machine
end

section
/-! PROOFS. What the other blocks do to the exchange: they hand events over and may set LOCK, and so they keep the bounds of
R185 and R187 and leave the walk as it is. -/

namespace Sys2Proof.Machine

/-! ### Handing events over -/

/-- The store's blocks, the record in hand, the walk and the clear that waits. -/
def Exchange.posture (x : Exchange) : BitVec 2 × Nat × Nat × Option InHand × Bool × Bool :=
  (x.blocksCode, x.oldest, x.filled, x.inHand, x.walking, x.clearAsked)

theorem Exchange.posture_iff {x y : Exchange} : y.posture = x.posture ↔ y.blocksCode = x.blocksCode ∧
    y.oldest = x.oldest ∧ y.filled = x.filled ∧ y.inHand = x.inHand ∧ y.walking = x.walking ∧
    y.clearAsked = x.clearAsked := by
  simp only [Exchange.posture, Prod.mk.injEq]

/-- From x to y the exchange was handed events at most: the posture stands, and a queue within its bound stays within it. -/
def Exchange.Hears (x y : Exchange) : Prop :=
  y.posture = x.posture ∧ (x.queue.length ≤ Config.queueDepth → y.queue.length ≤ Config.queueDepth)

namespace Exchange.Hears
variable {x y z : Exchange}

theorem refl (x : Exchange) : x.Hears x := ⟨rfl, id⟩

theorem trans (hxy : x.Hears y) (hyz : y.Hears z) : x.Hears z := ⟨hyz.1.trans hxy.1, hyz.2 ∘ hxy.2⟩

theorem storeLaw (hy : x.Hears y) (h : x.StoreLaw) : y.StoreLaw := by
  obtain ⟨hposture, hbound⟩ := hy
  obtain ⟨hblocks, hold, hfilled, hhand, hwalking, hasked⟩ := Exchange.posture_iff.1 hposture
  obtain ⟨hqueue, hrest⟩ := h
  have hcount : y.count = x.count := congrArg blockCount hblocks
  refine ⟨hbound hqueue, ?_⟩
  rw [hold, hfilled, hhand, hwalking, hasked, hcount]
  exact hrest

theorem joinAll (stamp : Word) (es : List Event) (h : x.Hears y) : x.Hears (y.joinAll stamp es) :=
  h.trans ⟨by rw [Exchange.joinAll_frame]; rfl, y.joinAll_queue_length stamp es⟩

/-! ### The state's operations -/

section state
variable {s : State}

theorem raise (e : Event) (h : x.Hears s.ex) : x.Hears (s.raise e).ex := h.joinAll s.frame [e]

theorem raiseAll (es : List Event) (h : x.Hears s.ex) : x.Hears (s.raiseAll es).ex := h.joinAll _ _

theorem setChan (c : ChanId) (ch : Chan) (h : x.Hears s.ex) : x.Hears (s.setChan c ch).ex := h

theorem putChan (c : ChanId) (r : Chan × List Event) (h : x.Hears s.ex) : x.Hears (s.putChan c r).ex := h.joinAll _ _

/-- A loss of lock sets LOCK beside what the event sets (R157, R158). -/
theorem putClock (m : ClockMove) (tag : Option Half) (h : x.Hears s.ex) : x.Hears (s.putClock m tag).ex := by
  unfold State.putClock
  dsimp only
  split
  · exact h
  · exact raise _ (by exact h)

theorem foldl {α : Type} {f : State → α → State} (hf : ∀ t a, x.Hears t.ex → x.Hears (f t a).ex) (l : List α)
    (h : x.Hears s.ex) : x.Hears (l.foldl f s).ex :=
  List.foldlRecOn (motive := fun t : State => x.Hears t.ex) l f h fun t ht a _ => hf t a ht

/-! ### The line and the arbiter -/

theorem arbitrate (first : Option ReqId) (h : x.Hears s.ex) : x.Hears (s.arbitrate first).ex := by
  have hstart (r : ReqId) : (s.startFor r).ex = s.ex := by unfold State.startFor; split <;> rfl
  unfold State.arbitrate
  split
  · exact h
  · split
    · exact h
    · next r _ _ _ => exact (hstart r).symm ▸ h

theorem txSucceeds (t : InFlight) (h : x.Hears s.ex) : x.Hears (s.txSucceeds t).ex := by
  have hchans (u : State) (hu : x.Hears u.ex) (b : BoardId) (data : List Byte) : x.Hears (u.readbackChans b data).ex :=
    hu.foldl (fun _ _ ht => ht.putChan _ _) _
  unfold State.txSucceeds
  split
  · exact h.joinAll _ _
  · unfold State.readbackSucceeds
    dsimp only
    split
    · exact (hchans _ (by exact h) _ _).raise _
    · exact hchans _ (by exact h) _ _

theorem txFails (t : InFlight) (err : LineError) (h : x.Hears s.ex) : x.Hears (s.txFails t err).ex := by
  have hlost (u : State) (hu : x.Hears u.ex) (p : Bool) :
      x.Hears (if p then u.boardOffline t.board err else u).ex := by
    split
    · unfold State.boardOffline
      exact raise _ (foldl (fun _ _ ht => ht.setChan _ _) _ hu)
    · exact hu
  have hstep (c : ChanId) : x.Hears (s.stepFails c err).ex := raise _ (putChan _ _ h)
  unfold State.txFails
  cases t.kind with
  | step c sent => exact hlost _ (hstep c) _
  | readback => exact hlost (s.readbackFails t.board) h _

theorem receiveChar (ch : LineChar) (h : x.Hears s.ex) : x.Hears (s.receiveChar ch).ex := by
  unfold State.receiveChar
  split
  · exact h
  · dsimp only
    split
    · unfold State.txComplete
      split
      · exact h.txSucceeds _
      · exact h.txFails _ _
    · exact h

theorem windowExpires (h : x.Hears s.ex) : x.Hears s.windowExpires.ex := by
  unfold State.windowExpires
  split
  · exact h
  · split
    · exact h.txFails _ _
    · exact h

theorem retryReadback (b : BoardId) (h : x.Hears s.ex) : x.Hears (s.retryReadback b).ex := by
  unfold State.retryReadback
  split <;> exact h

/-! ### The steps of a channel, and the lanes -/

theorem forceStep (c : ChanId) (h : x.Hears s.ex) : x.Hears (s.forceStep c).ex := by
  unfold State.forceStep
  split <;> exact h

theorem applyPending (c : ChanId) (h : x.Hears s.ex) : x.Hears (s.applyPending c).ex := by
  unfold State.applyPending
  split
  · exact h.putChan _ _
  · exact h

theorem finishRamp (c : ChanId) (h : x.Hears s.ex) : x.Hears (s.finishRamp c).ex := by
  unfold State.finishRamp
  split
  · exact h.putChan _ _
  · exact h

theorem judgeLane (g : LaneId) (f : LaneInput) (h : x.Hears s.ex) : x.Hears (s.judgeLane g f).ex := by
  unfold State.judgeLane
  dsimp only
  split
  · exact h
  · exact h.joinAll _ _

/-! ### The blocks' work at a boundary -/

theorem meterChan (c : ChanId) (h : x.Hears s.ex) : x.Hears (s.meterChan c).ex := by
  rw [State.meterChan_eq]
  exact h.joinAll _ _

theorem portBoundary (p : Port) (h : x.Hears s.ex) : x.Hears (State.portBoundary s p).ex := h.joinAll _ _

theorem sceneBoundary (h : x.Hears s.ex) : x.Hears s.sceneBoundary.ex := by
  have hbanks : x.Hears s.exchangeBanks.ex := by rw [State.exchangeBanks_frame]; exact h
  unfold State.sceneBoundary
  split
  · exact h
  · exact hbanks.raiseAll _

/-! ### The clock, and changes of owner -/

theorem acquisitionGivesUp (h : x.Hears s.ex) : x.Hears s.acquisitionGivesUp.ex := by
  unfold State.acquisitionGivesUp
  split
  · exact h.putClock _ _
  · exact h

theorem clockRetries (h : x.Hears s.ex) : x.Hears s.clockRetries.ex := by
  unfold State.clockRetries
  split
  · exact h.putClock _ _
  · exact h

theorem clockSettled (h : x.Hears s.ex) : x.Hears s.clockSettled.ex := h.acquisitionGivesUp.clockRetries

theorem selectClock (src : ClockSource) (tag : Half) (h : x.Hears s.ex) : x.Hears (s.selectClock src tag).ex := by
  unfold State.selectClock
  dsimp only
  split
  · exact h
  · exact h.putClock _ _

theorem changeOwner (c : ChanId) (new : Option Feed) (cause : OwnCause) (tag : Half) (h : x.Hears s.ex) :
    x.Hears (s.changeOwner c new cause tag).ex := by
  rw [State.changeOwner_eq]
  exact h.joinAll _ _

theorem claimFree (c : ChanId) (f : Feed) (tag : Half) (h : x.Hears s.ex) : x.Hears (s.claimFree c f tag).ex :=
  changeOwner _ _ _ _ h

theorem takeOver (c : ChanId) (former f : Feed) (tag : Half) (h : x.Hears s.ex) :
    x.Hears (s.takeOver c former f tag).ex := changeOwner _ _ _ _ h

theorem giveUp (c : ChanId) (f : Feed) (cause : OwnCause) (tag : Half) (h : x.Hears s.ex) :
    x.Hears (s.giveUp c f cause tag).ex := changeOwner _ _ _ _ h

theorem turnFeed (f : Feed) (off on : Bool) (tag : Half) (h : x.Hears s.ex) : x.Hears (s.turnFeed f off on tag).ex := by
  rw [State.turnFeed_ex]
  exact h.joinAll _ _

end state

end Exchange.Hears

end Sys2Proof.Machine
end

section
/-! PROOFS. The take of a record keeps the bounds of R185 and R187, and a record comes into hand only while a walk runs (R58,
R170, R171). -/

namespace Sys2Proof.Machine

/-! ### The exchange's own work at a boundary -/

section exchange
variable {s : State}

theorem State.closeInterval_storeLaw (h : s.ex.StoreLaw) : s.closeInterval.ex.StoreLaw := by
  have hreload : ({ s.ex with meterCountdown := s.ex.meterInterval } : Exchange).StoreLaw := h
  unfold State.closeInterval
  split
  · exact hreload.takeSnapshot _
  · exact h

theorem State.exchangeSettled_storeLaw (h : s.ex.StoreLaw) : s.exchangeSettled.ex.StoreLaw :=
  (State.closeInterval_storeLaw h).pollExpires

end exchange

/-! ### The take of a record -/

/-- What a record is taken in: an exchange that meets its law, with a walk that runs. -/
def Exchange.Taking (x : Exchange) : Prop := x.StoreLaw ∧ x.walking = true

theorem Exchange.Hears.taking {x y : Exchange} (hy : x.Hears y) (h : x.Taking) : y.Taking := by
  obtain ⟨-, -, -, -, hwalking, -⟩ := Exchange.posture_iff.1 hy.1
  exact ⟨hy.storeLaw h.1, hwalking.trans h.2⟩

namespace Exchange.Taking
variable {s u : State}

/-- A take that ends with its outcome, after what the owning block's action handed over. -/
theorem finish (h : s.ex.Taking) (t : TakeHead) (r : Result) (reply : Option (List Byte))
    (hu : s.ex.Hears u.ex := by exact .refl _) : (u.finish t r reply).ex.StoreLaw := (hu.storeLaw h.1).finish t r reply

/-- A record that stays in hand does so in a walk that runs (R58, R170). -/
theorem hold (h : s.ex.Taking) (t : TakeHead) (r : Result) (reply : XpReply)
    (hu : s.ex.Hears u.ex := by exact .refl _) : (u.hold t r reply).ex.StoreLaw := by
  obtain ⟨⟨hqueue, hfilled, hold, -, -⟩, hwalking⟩ := hu.taking h
  exact ⟨hqueue, hfilled, hold, fun _ => hwalking, fun _ => rfl⟩

theorem holdOrFinish (h : s.ex.Taking) (t : TakeHead) (changes : Bool) (r : Result) (reply : XpReply)
    (hu : s.ex.Hears u.ex := by exact .refl _) : (u.holdOrFinish t changes r reply).ex.StoreLaw := by
  unfold State.holdOrFinish
  split
  · exact h.hold t r reply hu
  · exact h.finish t r _ hu

/-! ### The common checks -/

theorem withChan (h : s.ex.Taking) (t : TakeHead) {k : ChanId → Source → State} (hk : ∀ c src, (k c src).ex.StoreLaw) :
    (s.withChan t k).ex.StoreLaw := by
  unfold State.withChan
  split
  · exact h.finish _ _ _
  · exact h.finish _ _ _
  · exact hk _ _

theorem withXp (h : s.ex.Taking) (t : TakeHead) {k : ChanId → Feed → State} (hk : ∀ c f, (k c f).ex.StoreLaw) :
    (s.withXp t k).ex.StoreLaw := by
  unfold State.withXp
  split
  · exact h.finish _ _ _
  · exact h.finish _ _ _
  · exact h.finish _ _ _
  · split
    · exact hk _ _
    · exact h.finish _ _ _

theorem withFeed (h : s.ex.Taking) (t : TakeHead) {k : Feed → State} (hk : ∀ f, (k f).ex.StoreLaw) :
    (s.withFeed t k).ex.StoreLaw := by
  unfold State.withFeed
  split
  · exact h.finish _ _ _
  · exact h.finish _ _ _
  · split
    · exact hk _
    · exact h.finish _ _ _

theorem withSource (h : s.ex.Taking) (t : TakeHead) {k : State} (hk : k.ex.StoreLaw) : (s.withSource t k).ex.StoreLaw := by
  unfold State.withSource
  split
  · exact h.finish _ _ _
  · exact hk

/-! ### Each kind -/

theorem serveSetAnalog (h : s.ex.Taking) (t : TakeHead) (code : Half) : (s.serveSetAnalog t code).ex.StoreLaw := by
  refine h.withChan t fun c src => ?_
  dsimp only
  split
  · exact h.finish _ _ _ (.putChan _ _ (.refl _))
  · split
    · exact h.finish _ _ _
    · exact h.holdOrFinish _ _ _ _

theorem serveSetPad (h : s.ex.Taking) (t : TakeHead) (v : Byte) : (s.serveSetPad t v).ex.StoreLaw := by
  refine h.withChan t fun c src => ?_
  dsimp only
  split
  · exact h.finish _ _ _
  · split
    · exact h.finish _ _ _ (.putChan _ _ (.refl _))
    · exact h.finish _ _ _

theorem serveSetPhantom (h : s.ex.Taking) (t : TakeHead) (v : Byte) : (s.serveSetPhantom t v).ex.StoreLaw := by
  refine h.withChan t fun c src => ?_
  dsimp only
  split
  · exact h.finish _ _ _
  · split
    · exact h.finish _ _ _
    · split
      · exact h.finish _ _ _
      · exact h.finish _ _ _

theorem serveReadChannel (h : s.ex.Taking) (t : TakeHead) : (s.serveReadChannel t).ex.StoreLaw :=
  h.withChan t fun _ _ => h.finish _ _ _

theorem serveResync (h : s.ex.Taking) (t : TakeHead) : (s.serveResync t).ex.StoreLaw :=
  h.withChan t fun c _ => h.finish _ _ _ (Exchange.Hears.retryReadback (boardOf c) (.refl _))

theorem serveSetGuard (h : s.ex.Taking) (t : TakeHead) (enable : Byte) (threshold hold floor rest : Half) :
    (s.serveSetGuard t enable threshold hold floor rest).ex.StoreLaw := by
  refine h.withChan t fun c src => ?_
  dsimp only
  split
  · exact h.finish _ _ _
  · split
    · exact h.finish _ _ _
    · exact h.finish _ _ _

theorem serveSetTrim (h : s.ex.Taking) (t : TakeHead) (trim : Half) : (s.serveSetTrim t trim).ex.StoreLaw :=
  h.withXp t fun _ _ => h.holdOrFinish _ _ _ _

theorem serveSetMode (h : s.ex.Taking) (t : TakeHead) (v : Byte) : (s.serveSetMode t v).ex.StoreLaw := by
  refine h.withXp t fun c f => ?_
  dsimp only
  split
  · exact h.finish _ _ _
  · split
    · exact h.finish _ _ _
    · split
      · exact h.hold _ _ _
      · exact h.finish _ _ _
    · split
      · exact h.finish _ _ _
      · exact h.hold _ _ _

theorem serveSetFlags (h : s.ex.Taking) (t : TakeHead) (mute invert : Byte) :
    (s.serveSetFlags t mute invert).ex.StoreLaw := by
  refine h.withXp t fun c f => ?_
  dsimp only
  split
  · exact h.finish _ _ _
  · exact h.holdOrFinish _ _ _ _

theorem serveClaim (h : s.ex.Taking) (t : TakeHead) : (s.serveClaim t).ex.StoreLaw := by
  refine h.withXp t fun c f => ?_
  dsimp only
  split
  · exact h.finish _ _ _
  · split
    · exact h.hold _ _ _ (.claimFree _ _ _ (.refl _))
    · split
      · exact h.finish _ _ _
      · split
        · exact h.hold _ _ _ (.takeOver _ _ _ _ (.refl _))
        · exact h.finish _ _ _

theorem serveRelease (h : s.ex.Taking) (t : TakeHead) : (s.serveRelease t).ex.StoreLaw := by
  refine h.withXp t fun c f => ?_
  dsimp only
  split
  · exact h.hold _ _ _ (.giveUp _ _ _ _ (.refl _))
  · exact h.finish _ _ _

theorem serveSetFeed (h : s.ex.Taking) (t : TakeHead) (enable senior : Byte) :
    (s.serveSetFeed t enable senior).ex.StoreLaw := by
  refine h.withFeed t fun f => ?_
  dsimp only
  split
  · exact h.finish _ _ _
  · exact h.finish _ _ _ (by exact Exchange.Hears.turnFeed (s := { s with senior := _ }) f _ _ t.tag (.refl _))

theorem serveLoadSlotmap (h : s.ex.Taking) (t : TakeHead) (map : Word) : (s.serveLoadSlotmap t map).ex.StoreLaw := by
  refine h.withFeed t fun f => ?_
  dsimp only
  split
  · exact h.finish _ _ _
  · split
    · exact h.finish _ _ _
    · exact h.finish _ _ _

theorem serveLoadShadow (h : s.ex.Taking) (t : TakeHead) (table : Word) (first count : Byte) :
    (s.serveLoadShadow t table first count).ex.StoreLaw := by
  refine h.withSource t ?_
  dsimp only
  split
  · exact h.finish _ _ _
  · split
    · exact h.finish _ _ _
    · split
      · exact h.finish _ _ _
      · split
        · exact h.finish _ _ _
        · exact h.finish _ _ _

theorem serveSwap (h : s.ex.Taking) (t : TakeHead) (mask : ChanMask) : (s.serveSwap t mask).ex.StoreLaw := by
  refine h.withSource t ?_
  split
  · exact h.finish _ _ _
  · split
    · exact h.finish _ _ _
    · exact h.finish _ _ _

theorem serveSetClock (h : s.ex.Taking) (t : TakeHead) (source : Byte) : (s.serveSetClock t source).ex.StoreLaw := by
  refine h.withSource t ?_
  split
  · exact h.finish _ _ _
  · exact h.finish _ _ _ ((Exchange.Hears.refl s.ex).clockSettled.selectClock _ t.tag)

/-- The settings of SET_EXCHANGE lie outside the law (R177). -/
theorem serveSetExchange (h : s.ex.Taking) (t : TakeHead) (select : Byte) (threshold poll meter : Half) (unitId : Byte) :
    (s.serveSetExchange t select threshold poll meter unitId).ex.StoreLaw := by
  refine h.withSource t ?_
  split
  · exact h.finish _ _ _
  · have hconfigured (x : Exchange) (hx : x.StoreLaw) :
        (x.configure select threshold.toNat poll.toNat meter.toNat unitId.toNat).StoreLaw := hx
    exact (hconfigured _ (State.exchangeSettled_storeLaw h.1)).finish _ _ _

theorem serveKind (h : s.ex.Taking) (t : TakeHead) : (s.serveKind t).ex.StoreLaw := by
  unfold State.serveKind
  dsimp only
  split
  · exact h.serveSetAnalog t _
  · exact h.serveSetPad t _
  · exact h.serveSetPhantom t _
  · exact h.serveReadChannel t
  · exact h.serveResync t
  · exact h.serveSetGuard t _ _ _ _ _
  · exact h.serveSetTrim t _
  · exact h.serveSetMode t _
  · exact h.serveSetFlags t _ _
  · exact h.serveClaim t
  · exact h.serveRelease t
  · exact h.serveSetFeed t _ _
  · exact h.serveLoadSlotmap t _
  · exact h.serveLoadShadow t _ _ _
  · exact h.serveSwap t _
  · exact h.serveSetClock t _
  · exact h.serveSetExchange t _ _ _ _ _
  · exact h.finish t _ _

end Exchange.Taking

/-! ### The walk and the request commands -/

section walk
variable {s : State}

/-- A walk takes a record, or stops, with no record in hand (R170). -/
theorem State.walkStep_storeLaw (h : s.ex.StoreLaw) : s.walkStep.ex.StoreLaw := by
  unfold State.walkStep
  dsimp only
  split
  · next hidle =>
    obtain ⟨hwalking, hhand⟩ := Bool.and_eq_true_iff.1 hidle
    have hhand := Option.isNone_iff_eq_none.1 hhand
    split
    · exact h.deadEnd _ hhand
    · split
      · exact h.stopWalk hhand
      · exact Exchange.Taking.serveKind ⟨h, hwalking⟩ _
  · exact h

/-- A request command keeps the law where its take does. -/
theorem State.request_storeLaw {r : ReqHead} {kind : Byte} {args : List Byte} {serve : State → TakeHead → State}
    {t : State} (h : s.ex.StoreLaw) (ht : s.request r kind args serve = .next t)
    (hs : ∀ (u : State) t, u.ex.Taking → (serve u t).ex.StoreLaw) : t.ex.StoreLaw := by
  obtain rfl := Host.Outcome.next.inj ht
  have hoffer : (s.setEx (s.ex.offer r kind args)).ex.StoreLaw := h
  split
  · next htail =>
    have hhand : s.ex.inHand = none := Exchange.inHand_of_atTail htail
    split
    · refine hs _ _ ⟨hoffer, ?_⟩
      simp only [Exchange.atTail, Bool.and_eq_true] at htail
      exact htail.1.1
    · exact hoffer.deadEnd _ hhand
  · exact hoffer

end walk

end Sys2Proof.Machine
end

section
/-! PROOFS. The bounds of R185 and R187 under every command. -/

namespace Sys2Proof.Machine

section state
variable {s : State}

/-! ### Block boundaries and samples -/

/-- The Exchange Unit's work moves its countdowns alone, and every other block's hands events over (R153, R178). -/
theorem State.unitWork_storeLaw (u : BoundaryUnit) (ph : PhaseInput) (h : s.ex.StoreLaw) :
    (s.unitWork u ph).ex.StoreLaw := by
  have hrefl : s.ex.Hears s.ex := .refl _
  cases u with
  | meterGuard => exact (hrefl.foldl (fun _ c ht => ht.meterChan c) _).storeLaw h
  | preampLine | exchange => exact h
  | sceneStore => exact hrefl.sceneBoundary.storeLaw h
  | feedPorts => exact (hrefl.foldl (fun _ p ht => ht.portBoundary p) _).storeLaw h
  | clock => exact (hrefl.putClock _ _).storeLaw h

theorem State.boundaryWork_storeLaw (us : List BoundaryUnit) (ph : PhaseInput) (h : s.ex.StoreLaw) :
    (s.boundaryWork us ph).ex.StoreLaw :=
  State.boundaryWork_induct (P := fun t => t.ex.StoreLaw) (fun _ _ ht => ht)
    (fun _ u _ _ ht => State.unitWork_storeLaw u ph ht) h

theorem State.boundaryRest_storeLaw (h : s.ex.StoreLaw) : s.boundaryRest.ex.StoreLaw := by
  have hmade : s.boundaryMade.ex.StoreLaw :=
    ((Exchange.Hears.refl _).clockSettled.foldl (fun _ b ht => ht.retryReadback b) _).storeLaw
      (State.boundaryWork_storeLaw allUnits (freePhase s.frame) h)
  rw [State.boundaryRest_eq]
  split
  · exact h
  · exact State.exchangeSettled_storeLaw hmade

theorem State.catchUp_storeLaw (h : s.ex.StoreLaw) : s.catchUp.ex.StoreLaw := by
  have hreply : (s.setEx s.ex.writeReply).ex.StoreLaw := h.writeReply
  have hdue (x : Exchange) (t : State) (c : ChanId) (ht : x.Hears t.ex) : x.Hears (t.chanDue c).ex :=
    ((ht.forceStep c).finishRamp c).applyPending c
  unfold State.catchUp
  split
  · exact h
  · exact ((Exchange.Hears.refl _).foldl (hdue _) _).windowExpires.arbitrate none |>.storeLaw hreply

/-- A reply that a sample forms stays with the record that was in hand (R58). -/
theorem State.latchReply_storeLaw (h : s.ex.StoreLaw) : s.latchReply.StoreLaw := by
  obtain ⟨hqueue, hfilled, hold, hwalk, -⟩ := id h
  unfold State.latchReply
  split
  · exact h
  · next k hk =>
    split
    · exact h
    · exact ⟨hqueue, hfilled, hold, fun _ => hwalk (by rw [hk]; rfl), fun _ => rfl⟩

theorem exec_samplePeriod_storeLaw {t : State} (h : s.ex.StoreLaw) (ht : exec .samplePeriod s = .next t) :
    t.ex.StoreLaw := by
  rw [exec_samplePeriod] at ht
  obtain rfl := Host.Outcome.next.inj ht
  have hbefore : s.before.ex.StoreLaw :=
    ((Exchange.Hears.refl _).joinAll _ _).storeLaw (State.catchUp_storeLaw h)
  rw [State.endPeriod_ex]
  refine State.boundaryRest_storeLaw ?_
  rw [State.sampled_ex]
  exact ((Exchange.Hears.refl _).joinAll _ _).storeLaw (State.latchReply_storeLaw hbefore)

end state

/-! ### Every command -/

/-- Every command keeps the bounds of R185 and R187. -/
theorem exec_storeLaw {i : Instr} {s t : State} (h : s.ex.StoreLaw) (ht : exec i s = .next t) : t.ex.StoreLaw := by
  have hears {u : State} (hu : s.ex.Hears u.ex) : u.ex.StoreLaw := hu.storeLaw h
  have hrefl : s.ex.Hears s.ex := .refl _
  cases i with
  | badKind r kind =>
    simp only [exec, execBadKind] at ht
    refine State.request_storeLaw h ht fun u t hu => ?_
    split
    · exact hu.serveKind t
    · exact hu.finish t _ _
  | setAnalog =>
    simp only [exec, execSetAnalog] at ht
    exact State.request_storeLaw h ht fun u t hu => hu.serveSetAnalog t _
  | setPad =>
    simp only [exec, execSetPad] at ht
    exact State.request_storeLaw h ht fun u t hu => hu.serveSetPad t _
  | setPhantom =>
    simp only [exec, execSetPhantom] at ht
    exact State.request_storeLaw h ht fun u t hu => hu.serveSetPhantom t _
  | readChannel =>
    simp only [exec, execReadChannel] at ht
    exact State.request_storeLaw h ht fun u t hu => hu.serveReadChannel t
  | resync =>
    simp only [exec, execResync] at ht
    exact State.request_storeLaw h ht fun u t hu => hu.serveResync t
  | setGuard =>
    simp only [exec, execSetGuard] at ht
    exact State.request_storeLaw h ht fun u t hu => hu.serveSetGuard t _ _ _ _ _
  | setTrim =>
    simp only [exec, execSetTrim] at ht
    exact State.request_storeLaw h ht fun u t hu => hu.serveSetTrim t _
  | setMode =>
    simp only [exec, execSetMode] at ht
    exact State.request_storeLaw h ht fun u t hu => hu.serveSetMode t _
  | setFlags =>
    simp only [exec, execSetFlags] at ht
    exact State.request_storeLaw h ht fun u t hu => hu.serveSetFlags t _ _
  | claim =>
    simp only [exec, execClaim] at ht
    exact State.request_storeLaw h ht fun u t hu => hu.serveClaim t
  | release =>
    simp only [exec, execRelease] at ht
    exact State.request_storeLaw h ht fun u t hu => hu.serveRelease t
  | setFeed =>
    simp only [exec, execSetFeed] at ht
    exact State.request_storeLaw h ht fun u t hu => hu.serveSetFeed t _ _
  | loadSlotmap =>
    simp only [exec, execLoadSlotmap] at ht
    exact State.request_storeLaw h ht fun u t hu => hu.serveLoadSlotmap t _
  | loadShadow =>
    simp only [exec, execLoadShadow] at ht
    exact State.request_storeLaw h ht fun u t hu => hu.serveLoadShadow t _ _ _
  | swap =>
    simp only [exec, execSwap] at ht
    exact State.request_storeLaw h ht fun u t hu => hu.serveSwap t _
  | setClock =>
    simp only [exec, execSetClock] at ht
    exact State.request_storeLaw h ht fun u t hu => hu.serveSetClock t _
  | setExchange =>
    simp only [exec, execSetExchange] at ht
    exact State.request_storeLaw h ht fun u t hu => hu.serveSetExchange t _ _ _ _ _
  | chainWalk writes =>
    have hwritten : (s.setEx { s.ex with mem := controllerCells s.ex.mem writes }).ex.StoreLaw := h
    simp only [exec, execChainWalk] at ht
    split at ht
    · cases ht
    · obtain rfl := Host.Outcome.next.inj ht
      exact State.walkStep_storeLaw hwritten
  | powerOnReset => obtain rfl := Host.Outcome.next.inj ht; exact Exchange.reset_law.1
  | samplePeriod => exact exec_samplePeriod_storeLaw h ht
  | laneFrame g f => obtain rfl := Host.Outcome.next.inj ht; exact hears (hrefl.judgeLane g f)
  | arbiterDecision first => obtain rfl := Host.Outcome.next.inj ht; exact hears (hrefl.arbitrate _)
  | answerCharacter ch => obtain rfl := Host.Outcome.next.inj ht; exact hears (hrefl.receiveChar ch)
  | answerWindowExpiry => obtain rfl := Host.Outcome.next.inj ht; exact hears hrefl.windowExpires
  | forcedStep c => obtain rfl := Host.Outcome.next.inj ht; exact hears (hrefl.forceStep c)
  | pendingApplication c => obtain rfl := Host.Outcome.next.inj ht; exact hears (hrefl.applyPending c)
  | rampEnd c => obtain rfl := Host.Outcome.next.inj ht; exact hears (hrefl.finishRamp c)
  | acquisitionTimeout => obtain rfl := Host.Outcome.next.inj ht; exact hears hrefl.acquisitionGivesUp
  | clockRetry => obtain rfl := Host.Outcome.next.inj ht; exact hears hrefl.clockRetries
  | readbackRetry b => obtain rfl := Host.Outcome.next.inj ht; exact hears (hrefl.retryReadback b)
  | blockBoundary us ph => obtain rfl := Host.Outcome.next.inj ht; exact State.boundaryWork_storeLaw us ph h
  | swapApply => obtain rfl := Host.Outcome.next.inj ht; exact State.boundaryWork_storeLaw _ _ h
  | meterClose => obtain rfl := Host.Outcome.next.inj ht; exact State.closeInterval_storeLaw h
  | pollCountdownExpiry => obtain rfl := Host.Outcome.next.inj ht; exact h.pollExpires
  | reportWrite => obtain rfl := Host.Outcome.next.inj ht; exact h.writeNext
  | replyWrite => obtain rfl := Host.Outcome.next.inj ht; exact h.writeReply
  | exchangeClear => obtain rfl := Host.Outcome.next.inj ht; exact h.askClear
  | clear on =>
    obtain rfl := Host.Outcome.next.inj ht
    split
    · exact h.askClear
    · exact h
  | poke v =>
    obtain rfl := Host.Outcome.next.inj ht
    split
    · exact h.trigger
    · exact h
  | registerWriteIgnored r v => obtain rfl := Host.Outcome.next.inj ht; exact h.writeReg r v
  | releaseWrite v => obtain rfl := Host.Outcome.next.inj ht; exact h.giveBack _
  | blocks code => obtain rfl := Host.Outcome.next.inj ht; exact h.setBlocks code
  | enable on => obtain rfl := Host.Outcome.next.inj ht; exact h.setEnable on
  | returnWord | wordClockEdge | noticeWrite | noticeMaskWrite => obtain rfl := Host.Outcome.next.inj ht; exact h

/-- Settles O5: the law does not speak of the queue of commands, so a step keeps it as its command does. -/
theorem storeStaysBounded : Obligations.StoreStaysBounded := by
  unfold Obligations.StoreStaysBounded
  intro s t h ht
  unfold step at ht
  split at ht
  · obtain rfl := Host.Outcome.next.inj ht
    exact h
  · next i rest _ =>
    have hrest : ({ s with pending := rest } : State).ex.StoreLaw := h
    exact exec_storeLaw hrest ht

end Sys2Proof.Machine
end
